-- ==== Sys2Proof/Word.lean ====
section
/-! DEFINITION. The word types of the NG641: bytes, 16-bit serial values, station time, pixels and counters. -/

namespace Sys2Proof

/-- One data byte of a link, of the configuration image or of frame memory. -/
abbrev Byte := BitVec 8

/-- A 16-bit counter (Conventions, "Counters": 16 bits wide, saturating). -/
abbrev Counter := BitVec 16

/-- A frame number, a 16-bit serial value. -/
abbrev FrameNo := BitVec 16

/-- An epoch, a 16-bit serial value. -/
abbrev Epoch := BitVec 16

/-- Station time, or a difference of two stamps: 32 bits, wrapping (R74). -/
abbrev Tick := BitVec 32

/-- A station address as a ring header carries it, 5 bits (13.4). -/
abbrev Address := BitVec 5

/-- A group, 0 to 7 (13.4). -/
abbrev Group := BitVec 3

/-- A pixel in 24-bit form: red in the high byte, then green, then blue (R151). -/
abbrev Pixel := BitVec 24

/-- The 56 header bits of R191: header bit `i` is bit `i`. -/
abbrev HeaderBits := BitVec 56

end Sys2Proof
end

