-- ==== Sys2Proof/Config.lean ====
section
/-! DEFINITION. What one NG641 fixes (sizes and limits the manual states) and the free values. -/

namespace Sys2Proof.Config

/-- FREE VALUE (log 11). The byte that the frame memory address (second argument) holds after device reset has cut
the line write that covers it; the first argument is the draw, so that no two cuts need agree.
R163: such a write ends "without a completion"; the manual states no contents for its line. -/
opaque cutLineByte : Nat → Nat → BitVec 8

/-- Capacity of the forward queue in bytes (R104). -/
def forwardCapacity : Nat := 160

/-- Entries the outstanding list holds at most (R124). -/
def outstandingLimit : Nat := 8

/-- Longest payload of a ring packet (R94, R100). -/
def maxRingLength : Nat := 56

/-- Longest payload of a source link packet (R130, R136). -/
def maxLinkLength : Nat := 8192

/-- Hops of every packet at its sender (R121). -/
def hopsAtSender : Nat := 32

/-- Places of the write queue, the write in progress included (R154). -/
def writePlaces : Nat := 4

/-- POLLs that may wait (R172). -/
def pollPlaces : Nat := 2

/-- Frame starts for which a fault of the own entry is held (R45). -/
def faultHold : Nat := 16

/-- Frame starts that HOLDOVER lasts (R89). -/
def holdoverLimit : Nat := 16

/-- Frame starts of LISTENING (R60). -/
def listeningLimit : Nat := 4

/-- Beats-missed at which an eligible station claims (R60) and timed-missed at which lock is lost (R88). -/
def missedLimit : Nat := 3

/-- The ceiling of beats-missed and timed-missed (R59, R88). -/
def missedCeiling : Nat := 255

/-- The saturated Delay of a BEAT (R79, R120). -/
def saturatedDelay : Nat := 65535

/-- Bytes of the frame memory device (R161). -/
def frameMemoryBytes : Nat := 33554432

/-- What an address of frame memory that nothing has written reads as (log 10: DESIGN CHOICE, unsafe). -/
def unlistedByte : BitVec 8 := 0

/-- Ticks of 1 microsecond: a shorter low pulse on RESET_N is filtered out (R188). -/
def resetPulseTicks : Nat := 100

/-- Bytes of the configuration image (R183). -/
def imageBytes : Nat := 24

/-- What the Loader sends on the configuration memory port before the image comes in: the read command 0x03 and the
3-byte address 0 (R183). -/
def readCommand : List (BitVec 8) := [0x03, 0, 0, 0]

/-- Ticks of one SPI clock period: 12.5 MHz of 100 MHz (R183). -/
def spiClockTicks : Nat := 8

/-- Ticks of the read: 224 SPI clock periods, 8 for each command, address and image byte (R183). The model takes the
read's duration from its environment (log 23). -/
def readTicks : Nat := (readCommand.length + imageBytes) * 8 * spiClockTicks

/-- Format code of the image (R183). -/
def imageFormat : BitVec 8 := 0x31

/-- Identification code of the IDENT report (R189). -/
def identification : BitVec 16 := 0x0641

/-- Revision number of the IDENT report (R189). -/
def revision : BitVec 8 := 1

end Sys2Proof.Config
end

