-- ==== Sys2Proof/Syntax.lean ====
section
/-! DEFINITION. The commands of the NG641: one constructor of `Instr` per row of spec/opcode_table.json. -/

namespace Sys2Proof

/-- What has passed since the command before (logs 1 and 3): ticks of REFCLK (R74), and the data bytes taken on
RING IN, on the forward lane and on the configuration memory port that completed nothing. -/
structure Elapsed where
  ticks : BitVec 32 := 0
  ringIn : List Byte := []
  linkIn : List Byte := []
  imageIn : List Byte := []
  deriving DecidableEq, Repr

/-- What causes a device reset (R188): power-on, or RESET_N held low for a number of ticks. -/
inductive ResetCause where
  | powerOn
  | resetPin (lowTicks : Nat)
  deriving DecidableEq, Repr

/-- The work that the blocks do at one frame start, after the Timing Unit's (R77): the Role Controller (R60), the
Scan-Out Unit's settling of the ended frame (R167), the presentation step (R33), the start of frame line 0 (R76,
R165), the composition (R26), the fault holds (R45), the STANDING offer (R46) and the expiry of outstanding
entries (R125). -/
inductive FramePart where
  | role
  | settle
  | present
  | firstLine
  | compose
  | holds
  | offer
  | expire
  deriving DecidableEq, Repr

/-- The order in which the blocks take one frame start (log 7), and the ticks the composition takes before its
BEAT may depart (R123: "the small time the composition takes"; log 14). -/
structure FrameOrder where
  parts : List FramePart
  composeTicks : BitVec 32 := 0
  deriving DecidableEq, Repr

/-- The commands. `e` is what has passed since the command before. `rest` is the data bytes that complete the
named piece: the bytes still missing, up to and including the last one. -/
inductive Instr where
  /-- DEVICE_RESET (R188) -/
  | deviceReset (e : Elapsed) (cause : ResetCause)
  /-- RESET_END (R183) -/
  | resetEnd (e : Elapsed)
  /-- CONFIG_READ_COMPLETE (R184) -/
  | configReadComplete (e : Elapsed) (rest : List Byte)
  /-- RING_LOSS_OF_SIGNAL (R96) -/
  | ringLossOfSignal (e : Elapsed)
  /-- RING_SIGNAL_PRESENT (R96) -/
  | ringSignalPresent (e : Elapsed)
  /-- RING_START_MARKER (R97) -/
  | ringStartMarker (e : Elapsed)
  /-- RING_FILL (R98) -/
  | ringFill (e : Elapsed)
  /-- RING_HEADER_TAKEN (R99) -/
  | ringHeaderTaken (e : Elapsed) (rest : List Byte)
  /-- RING_PACKET_COMPLETE (R107); `order` is used only by a frame start produced at once (R84) -/
  | ringPacketComplete (e : Elapsed) (rest : List Byte) (order : FrameOrder)
  /-- RING_TRANSMISSION_COMPLETE (R117) -/
  | ringTransmissionComplete (e : Elapsed)
  /-- ENTRY_AGED (R53) -/
  | entryAged (e : Elapsed) (order : FrameOrder)
  /-- FRAME_START (R77) -/
  | frameStart (e : Elapsed) (order : FrameOrder)
  /-- LISTENING_COUNT_END (R60) -/
  | listeningCountEnd (e : Elapsed) (order : FrameOrder)
  /-- FAULT_HOLD_EXPIRY (R45) -/
  | faultHoldExpiry (e : Elapsed) (order : FrameOrder)
  /-- OUTSTANDING_EXPIRY (R125) -/
  | outstandingExpiry (e : Elapsed) (order : FrameOrder)
  /-- HOLDOVER_ENTRY (R88) -/
  | holdoverEntry (e : Elapsed) (order : FrameOrder)
  /-- HOLDOVER_EXPIRY (R89) -/
  | holdoverExpiry (e : Elapsed) (order : FrameOrder)
  /-- LINE_START (R168) -/
  | lineStart (e : Elapsed)
  /-- TRANSFER_COMPLETE (R163) -/
  | transferComplete (e : Elapsed)
  /-- LINK_LOSS_OF_SIGNAL (R132) -/
  | linkLossOfSignal (e : Elapsed)
  /-- LINK_SIGNAL_PRESENT (R132) -/
  | linkSignalPresent (e : Elapsed)
  /-- LINK_START_MARKER (R133) -/
  | linkStartMarker (e : Elapsed)
  /-- LINK_FILL (R134) -/
  | linkFill (e : Elapsed)
  /-- LINK_HDR_BAD (R135) -/
  | linkHdrBad (e : Elapsed) (rest : List Byte)
  /-- LINK_LENGTH_BAD (R136, R138) -/
  | linkLengthBad (e : Elapsed) (rest : List Byte)
  /-- UNKNOWN_KIND (R137) -/
  | unknownKind (e : Elapsed) (rest : List Byte)
  /-- FILLER (R139) -/
  | filler (e : Elapsed) (rest : List Byte)
  /-- FRAME_BEGIN (R148) -/
  | frameBegin (e : Elapsed) (rest : List Byte)
  /-- LINE (R152): the last CRC byte of a LINE is taken -/
  | line (e : Elapsed) (rest : List Byte)
  /-- FRAME_END (R156) -/
  | frameEnd (e : Elapsed) (rest : List Byte)
  /-- POLL (R172) -/
  | poll (e : Elapsed) (rest : List Byte)
  /-- REPORT_COMPLETE (R173) -/
  | reportComplete (e : Elapsed)
  /-- CLEAR (R178) -/
  | clear (e : Elapsed) (rest : List Byte)
  /-- LINK_RESET (R179) -/
  | linkReset (e : Elapsed) (rest : List Byte)
  /-- WITHDRAW (R187) -/
  | withdraw (e : Elapsed) (rest : List Byte)
  /-- REJOIN (R187) -/
  | rejoin (e : Elapsed) (rest : List Byte)
  /-- LINK_HEADER_TAKEN (R135, R140): the header of a LINE with Length 1 to 8,192 -/
  | linkHeaderTaken (e : Elapsed) (rest : List Byte)
  /-- SKIP_LAST_BYTE (R139) -/
  | skipLastByte (e : Elapsed)
  deriving DecidableEq, Repr

end Sys2Proof
end

