-- ==== Sys2Proof/Decode.lean ====
section
/-! DEFINITION. Decoding of the opcode table's words: no row of spec/opcode_table.json gives bits (log 22). -/

namespace Sys2Proof

/-- The command that a word of `nbits` bits spells by the table's bits. Every row's "fields" is empty and none has
fixed bits, so no word spells a command. -/
def decodeTableWord (_nbits _w : Nat) : Option Instr := none

end Sys2Proof
end

