-- ==== Sys2Proof/Machine/State.lean ====
section
/-! DEFINITION. The state of the NG641, block by block, and its value right after reset. -/

namespace Sys2Proof.Machine

/-! ### Configuration Loader (chapter 12) -/

/-- Station states, in the order of 12.2 and of their IDENT codes (13.6). -/
inductive StationState where
  | configuring
  | configFault
  | running
  | withdrawn
  deriving DecidableEq, Repr

/-- The source pixel formats (R150). -/
inductive PixelFormat where
  | p24
  | p16
  | p12
  | p30
  deriving DecidableEq, Repr

/-- The advance policies (R25). -/
inductive AdvancePolicy where
  | next
  | newest
  deriving DecidableEq, Repr

/-- The settled configuration (R183, R185). -/
structure Settings where
  address : Address
  group : Group
  capable : Bool
  policy : AdvancePolicy
  format : PixelFormat
  slotCount : Nat
  /-- the line period L in ticks -/
  lineTicks : Nat
  vb : Nat
  h : Nat
  w : Nat
  lockWindow : Nat
  slewLimit : Nat
  segmentDelay : Nat
  background : Pixel
  deriving DecidableEq, Repr

/-- The fields of the image, in the order of the table of R183. -/
inductive ImageField where
  | formatCode
  | address
  | group
  | capable
  | policy
  | format
  | slotCount
  | lineTicks
  | vb
  | h
  | w
  | lockWindow
  | slewLimit
  | segmentDelay
  | background
  deriving DecidableEq, Repr

/-- Why an image is not valid (R184). -/
inductive FaultCause where
  | imageCrc
  | formatCode
  | fieldRange (field : ImageField)
  | unusedNonzero
  | periodRange
  deriving DecidableEq, Repr

/-- The Configuration Loader's state. The read progress is the length of the image as read; the image is absent
while it has no byte. -/
structure Loader where
  station : StationState
  image : List Byte
  settled : Option Settings
  cause : Option FaultCause
  deriving DecidableEq, Repr

/-! ### Timing Unit (chapter 5) -/

/-- Lock states, in the order of 5.4 and of their codes (13.4). -/
inductive Lock where
  | free
  | acquiring
  | locked
  | holdover
  | reference
  deriving DecidableEq, Repr

/-- The running frame timer (R75): last and next frame start, and the frame line in progress (R76). -/
structure FrameTimer where
  last : Tick
  next : Tick
  line : Nat
  deriving DecidableEq, Repr

/-- ACTION of the Last estimate, in the order of its codes (13.6). -/
inductive EstimateAction where
  | lock
  | trim
  | slip
  | jump
  deriving DecidableEq, Repr

/-- The Last estimate record (R81). -/
structure Estimate where
  beatEpoch : Epoch
  phaseError : Int
  action : EstimateAction
  correction : Int
  deriving DecidableEq, Repr

/-- The Timing Unit's state. `timer` is present exactly while the timer runs. `departedAt` is the station time of
the last departure from ORIGIN, for the coincidence of R91 (log 13). -/
structure TimingUnit where
  timer : Option FrameTimer
  epoch : Epoch
  frameCount : BitVec 16
  lock : Lock
  timedMissed : Nat
  slip : Nat
  holdover : Nat
  departedAt : Option Tick
  estimate : Option Estimate
  jumps : Counter
  slips : Counter
  epochStep : Counter
  holdoverEntries : Counter
  saturatedDelay : Counter
  deriving DecidableEq, Repr

/-! ### Role Controller (chapter 4) -/

/-- Roles, in the order of their codes (13.4). -/
inductive Role where
  | listening
  | follower
  | origin
  | standby
  deriving DecidableEq, Repr

/-- The Last BEAT record (R65). -/
structure LastBeat where
  origin : Address
  epoch : Epoch
  decision : Option FrameNo
  participants : Byte
  delay : BitVec 16
  deriving DecidableEq, Repr

/-- The Role Controller's state. -/
structure RoleUnit where
  role : Role
  /-- the current origin -/
  current : Option Address
  beatsMissed : Nat
  listening : Nat
  lastBeat : Option LastBeat
  beatsAccepted : Counter
  ignoredBeats : Counter
  dueling : Counter
  periodMismatch : Counter
  claims : Counter
  yields : Counter
  deriving DecidableEq, Repr

/-! ### Roster Unit (chapter 3) -/

/-- Ring states, in the order of their codes (13.4). -/
inductive RingState where
  | unknown
  | intact
  | broken
  deriving DecidableEq, Repr

/-- What a STANDING carries (R47): the payload fields of an entry. -/
structure Standing where
  capable : Bool
  role : Role
  lock : Lock
  ring : RingState
  conflict : Bool
  mismatch : Bool
  shown : Option FrameNo
  epoch : Epoch
  list : List FrameNo
  deriving DecidableEq, Repr

/-- A roster entry (R43); `member` is STATE. -/
structure Entry where
  address : Address
  member : Bool
  said : Standing
  silence : Nat
  lastSequence : Byte
  deriving DecidableEq, Repr

/-- The Last LEAVE record (R54). -/
structure LastLeave where
  address : Address
  reason : Byte
  deriving DecidableEq, Repr

/-- The Roster Unit's state: the entries of the other stations in ascending address order, the own entry's presence
and LAST_SEQUENCE (R44: its other fields are not stored), and the two fault holds (R45). -/
structure RosterUnit where
  entries : List Entry
  ownPresent : Bool
  ownSequence : Byte
  conflictHold : Nat
  mismatchHold : Nat
  lastLeave : Option LastLeave
  standingsTaken : Counter
  duplicateStanding : Counter
  rosterRefused : Counter
  entriesAged : Counter
  leavesTaken : Counter
  deriving DecidableEq, Repr

/-! ### Presentation Controller (chapter 2) -/

/-- A pending decision (R21). -/
structure Decision where
  target : Epoch
  frame : FrameNo
  deriving DecidableEq, Repr

/-- The Presentation Controller's state. -/
structure Presentation where
  shown : Option FrameNo
  /-- the pending decision -/
  decision : Option Decision
  presented : Counter
  repeated : Counter
  missed : Counter
  staleDecision : Counter
  lateDecision : Counter
  decisionsMade : Counter
  deriving DecidableEq, Repr

/-! ### Slot Manager (chapter 1) -/

/-- Slot states, in the order of R2 (the codes of 13.6). -/
inductive SlotState where
  | free
  | filling
  | closing
  | complete
  | shown
  | draining
  deriving DecidableEq, Repr

/-- A slot record (R2); its INDEX is its place in the table. `written` is strictly ascending. -/
structure Slot where
  state : SlotState
  frame : Option FrameNo
  written : List Nat
  pending : Nat
  damaged : Bool
  deriving DecidableEq, Repr

/-- The Slot Manager's state. -/
structure SlotManager where
  table : List Slot
  /-- the complete list -/
  complete : List FrameNo
  framesCompleted : Counter
  evicted : Counter
  skipped : Counter
  deriving DecidableEq, Repr

/-! ### Ring Receiver (chapter 6) -/

/-- The fields of a ring packet header (13.4), the two zero positions included. -/
structure RingHeader where
  kind : Byte
  group : Group
  origin : Address
  sequence : Byte
  hops : BitVec 6
  taint : Bool
  zeroHops : BitVec 1
  length : BitVec 6
  zeroLength : BitVec 2
  delay : BitVec 16
  deriving DecidableEq, Repr

/-- Receive states of the Ring Receiver (6.2), in order. -/
inductive RingRxState where
  | down
  | hunt
  | header
  | payload
  deriving DecidableEq, Repr

/-- The packet in reception (R97). `taken` holds the header bytes while the header is not in, and the payload and
CRC bytes afterwards; BYTES is computed from it. -/
structure RingRxPacket where
  arrival : Tick
  taken : List Byte
  header : Option RingHeader
  reserved : Bool
  deriving DecidableEq, Repr

/-- The Ring Receiver's state. -/
structure RingReceiver where
  state : RingRxState
  packet : Option RingRxPacket
  hdrCorrected : Counter
  hdrBad : Counter
  lengthBad : Counter
  stripped : Counter
  orphan : Counter
  forwardOverflow : Counter
  crcFirst : Counter
  taintedIn : Counter
  truncated : Counter
  signalLost : Counter
  forwarded : Counter
  consumed : Counter
  beatRefused : Counter
  deriving DecidableEq, Repr

/-! ### Ring Transmitter (chapter 7) -/

/-- A whole packet of the forward queue (R113); `body` is payload and CRC as received. -/
structure RingPacket where
  header : RingHeader
  body : List Byte
  arrival : Tick
  deriving DecidableEq, Repr

/-- The content of a BEAT (R27). -/
structure Beat where
  epoch : Epoch
  decision : Option FrameNo
  period : BitVec 24
  participants : Byte
  deriving DecidableEq, Repr

/-- The kinds of the station's own packets (R121). -/
inductive OwnKind where
  | leave
  | beat
  | standing
  deriving DecidableEq, Repr

/-- Whose packet is being sent: a forwarded one, with the room it holds, or an own one. -/
inductive SendSource where
  | forwarded (size : Nat)
  | own (kind : OwnKind)
  deriving DecidableEq, Repr

/-- The packet being sent on RING OUT (R117), with its bytes as they were settled at departure. -/
structure Sending where
  source : SendSource
  bytes : List Byte
  deriving DecidableEq, Repr

/-- An entry of the outstanding list (R124). -/
structure Outstanding where
  sequence : Byte
  kind : OwnKind
  departed : BitVec 16
  deriving DecidableEq, Repr

/-- The Ring Transmitter's state. RING OUT is SENDING exactly while `sending` is present. -/
structure RingTransmitter where
  queue : List RingPacket
  occupancy : Nat
  leave : Bool
  beat : Option Beat
  standing : Bool
  sending : Option Sending
  sequence : Byte
  outstanding : List Outstanding
  ring : RingState
  localSent : Counter
  beatReplaced : Counter
  standingReplaced : Counter
  takenBack : Counter
  lostOwn : Counter
  addressConflict : Counter
  delayCapped : Counter
  deriving DecidableEq, Repr

/-! ### Source Link Receiver (chapter 8) -/

/-- The header fields of a source link packet (13.5). -/
structure LinkHeader where
  kind : Byte
  a : BitVec 16
  b : BitVec 16
  length : BitVec 14
  deriving DecidableEq, Repr

/-- Receive states of the Source Link Receiver (8.2), in order. -/
inductive LinkRxState where
  | down
  | hunt
  | header
  | payload
  | skip
  deriving DecidableEq, Repr

/-- The packet in reception on the forward lane (R133). `taken` holds the header bytes while the header is not in,
and in PAYLOAD the payload and CRC bytes so far: its leading Length bytes are the receive buffer. -/
structure LinkRxPacket where
  taken : List Byte
  header : Option LinkHeader
  remaining : Nat
  deriving DecidableEq, Repr

/-- The Source Link Receiver's state. `signal` says whether the forward lane is recovering symbols (R131). -/
structure LinkReceiver where
  state : LinkRxState
  signal : Bool
  packet : Option LinkRxPacket
  hdrCorrected : Counter
  hdrBad : Counter
  lengthBad : Counter
  unknownKind : Counter
  crcBad : Counter
  truncated : Counter
  signalLost : Counter
  packetsTaken : Counter
  notConfigured : Counter
  deriving DecidableEq, Repr

/-! ### Frame Assembler (chapter 9) -/

/-- Assembler states (9.1), in order. -/
inductive AssemblerState where
  | noFrame
  | inFrame
  | discarding
  deriving DecidableEq, Repr

/-- The open line (R152). -/
structure OpenLine where
  line : Nat
  next : Nat
  deriving DecidableEq, Repr

/-- A line write (R154). -/
structure LineWrite where
  slot : Nat
  line : Nat
  pixels : List Pixel
  deriving DecidableEq, Repr

/-- The Frame Assembler's state. `accounted` is strictly ascending; `buffer` holds the pixels of the open line. -/
structure Assembler where
  state : AssemblerState
  frame : Option FrameNo
  slot : Option Nat
  accounted : List Nat
  openLine : Option OpenLine
  buffer : List Pixel
  queue : List LineWrite
  framesBegun : Counter
  linesQueued : Counter
  orphanLine : Counter
  rangeError : Counter
  formatError : Counter
  orderError : Counter
  lineAbandoned : Counter
  duplicateLine : Counter
  queueFullDrop : Counter
  staleFrame : Counter
  noSlotDrop : Counter
  abandonedFrame : Counter
  frameMismatch : Counter
  incompleteFrame : Counter
  deriving DecidableEq, Repr

/-! ### Frame Memory Controller and Scan-Out Unit (chapter 10) -/

/-- The transfer in progress (R162). A fetch's record is the one IN_PROGRESS record of the Scan-Out Unit. -/
inductive Transfer where
  | write (w : LineWrite)
  | fetch (slot : Nat) (line : Nat)
  deriving DecidableEq, Repr

/-- A tagged line buffer (R165). Its pixels are kept only while VALID is yes (log 20). -/
structure LineBuffer where
  line : Option Nat
  valid : Bool
  pixels : List Pixel
  deriving DecidableEq, Repr

/-- A fetch record (R165); `inProgress` distinguishes IN_PROGRESS from WAITING. -/
structure FetchRecord where
  line : Nat
  buffer : Fin 2
  inProgress : Bool
  stale : Bool
  deriving DecidableEq, Repr

/-- The output line (R168). -/
inductive OutputLine where
  | background
  | pixels (p : List Pixel)
  deriving DecidableEq, Repr

/-- The Scan-Out Unit's state. -/
structure ScanOut where
  slot : Option Nat
  even : LineBuffer
  odd : LineBuffer
  records : List FetchRecord
  output : OutputLine
  underrun : Counter
  cutFrames : Counter
  fetches : Counter
  staleFetch : Counter
  deriving DecidableEq, Repr

/-! ### Report Unit (chapter 11) -/

/-- The report kinds, in the order of their codes 1 to 8 (13.5). -/
inductive ReportKind where
  | ident
  | link
  | ingest
  | slots
  | roster
  | timing
  | present
  | ring
  deriving DecidableEq, Repr

/-- A POLL that waits (R172). -/
structure Poll where
  kind : ReportKind
  start : Byte
  max : Nat
  deriving DecidableEq, Repr

/-- A report in transmission (R173): its flags, next index (absent for none) and whole payload. -/
structure Report where
  kind : ReportKind
  truncated : Bool
  unavailable : Bool
  nextIndex : Option Byte
  payload : List Byte
  deriving DecidableEq, Repr

/-- The Report Unit's state. The return lane is SENDING exactly while `sending` is present. -/
structure ReportUnit where
  queue : List Poll
  sending : Option Report
  pollBad : Counter
  pollDropped : Counter
  reportsSent : Counter
  deriving DecidableEq, Repr

/-! ### The whole part -/

/-- The state of the NG641. -/
structure State where
  /-- the commands that are waiting, first in, first out (the model's own) -/
  pending : List Instr
  /-- a device reset is in progress: RESET_N low or power-on (R188; the model's own) -/
  held : Bool
  /-- station time (R74) -/
  now : Tick
  loader : Loader
  timing : TimingUnit
  role : RoleUnit
  roster : RosterUnit
  presentation : Presentation
  slots : SlotManager
  ringIn : RingReceiver
  ringOut : RingTransmitter
  link : LinkReceiver
  ingest : Assembler
  /-- the transfer in progress on the frame memory (R162) -/
  transfer : Option Transfer
  scan : ScanOut
  report : ReportUnit
  /-- the notice set, as the 16-bit value of 13.6 (R177) -/
  notices : BitVec 16
  /-- the frame memory (R161), in the canonical form of `Memory.wf` -/
  mem : List Host.Cell
  /-- how many free values have been drawn (log 11; the model's own) -/
  draws : Nat
  deriving DecidableEq, Repr

/-- Why the machine stops with a fault. -/
inductive Fault where
  /-- Raised by TRANSFER_COMPLETE for a line that does not lie inside the 33,554,432 bytes of frame memory (R161).
  Safe: no settled configuration has such a line, so no run reaches it. -/
  | frameMemoryAddress
  deriving DecidableEq, Repr

/-- Why a command is refused. -/
inductive Refusal where
  /-- Raised by an arm of `exec` whose command has no meaning yet. Safe. No arm uses it. -/
  | notModelled (mnemonic : String)
  deriving DecidableEq, Repr

/-! ### Reset values (the state tables of the chapters) -/

/-- The Configuration Loader after device reset (12, R188). -/
def Loader.reset : Loader :=
  { station := .configuring, image := [], settled := none, cause := none }

/-- The Timing Unit after device reset (R93). -/
def TimingUnit.reset : TimingUnit :=
  { timer := none, epoch := 0, frameCount := 0, lock := .free, timedMissed := 0, slip := 0, holdover := 0,
    departedAt := none, estimate := none, jumps := 0, slips := 0, epochStep := 0, holdoverEntries := 0,
    saturatedDelay := 0 }

/-- The Role Controller after device reset (R58). -/
def RoleUnit.reset : RoleUnit :=
  { role := .listening, current := none, beatsMissed := 0, listening := 0, lastBeat := none, beatsAccepted := 0,
    ignoredBeats := 0, dueling := 0, periodMismatch := 0, claims := 0, yields := 0 }

/-- The Roster Unit after device reset (R56). -/
def RosterUnit.reset : RosterUnit :=
  { entries := [], ownPresent := false, ownSequence := 0, conflictHold := 0, mismatchHold := 0, lastLeave := none,
    standingsTaken := 0, duplicateStanding := 0, rosterRefused := 0, entriesAged := 0, leavesTaken := 0 }

/-- The Presentation Controller after device reset (R20, R21). -/
def Presentation.reset : Presentation :=
  { shown := none, decision := none, presented := 0, repeated := 0, missed := 0, staleDecision := 0,
    lateDecision := 0, decisionsMade := 0 }

/-- A FREE slot record (R2). -/
def Slot.freed : Slot :=
  { state := .free, frame := none, written := [], pending := 0, damaged := false }

/-- The Slot Manager after device reset (R17): no record exists before a configuration fixes the slot count. -/
def SlotManager.reset : SlotManager :=
  { table := [], complete := [], framesCompleted := 0, evicted := 0, skipped := 0 }

/-- The Ring Receiver after device reset (R111). -/
def RingReceiver.reset : RingReceiver :=
  { state := .down, packet := none, hdrCorrected := 0, hdrBad := 0, lengthBad := 0, stripped := 0, orphan := 0,
    forwardOverflow := 0, crcFirst := 0, taintedIn := 0, truncated := 0, signalLost := 0, forwarded := 0,
    consumed := 0, beatRefused := 0 }

/-- The Ring Transmitter after device reset (R127). -/
def RingTransmitter.reset : RingTransmitter :=
  { queue := [], occupancy := 0, leave := false, beat := none, standing := false, sending := none, sequence := 0,
    outstanding := [], ring := .unknown, localSent := 0, beatReplaced := 0, standingReplaced := 0, takenBack := 0,
    lostOwn := 0, addressConflict := 0, delayCapped := 0 }

/-- The Source Link Receiver after device reset (R143); `signal` is the lane's, which no reset touches. -/
def LinkReceiver.reset (signal : Bool) : LinkReceiver :=
  { state := .down, signal := signal, packet := none, hdrCorrected := 0, hdrBad := 0, lengthBad := 0,
    unknownKind := 0, crcBad := 0, truncated := 0, signalLost := 0, packetsTaken := 0, notConfigured := 0 }

/-- The Frame Assembler after device reset (R159). -/
def Assembler.reset : Assembler :=
  { state := .noFrame, frame := none, slot := none, accounted := [], openLine := none, buffer := [], queue := [],
    framesBegun := 0, linesQueued := 0, orphanLine := 0, rangeError := 0, formatError := 0, orderError := 0,
    lineAbandoned := 0, duplicateLine := 0, queueFullDrop := 0, staleFrame := 0, noSlotDrop := 0,
    abandonedFrame := 0, frameMismatch := 0, incompleteFrame := 0 }

/-- A released line buffer: LINE absent, VALID no (R167). -/
def LineBuffer.released : LineBuffer :=
  { line := none, valid := false, pixels := [] }

/-- The Scan-Out Unit after device reset (R171). -/
def ScanOut.reset : ScanOut :=
  { slot := none, even := .released, odd := .released, records := [], output := .background, underrun := 0,
    cutFrames := 0, fetches := 0, staleFetch := 0 }

/-- The Report Unit after device reset (R182). -/
def ReportUnit.reset : ReportUnit :=
  { queue := [], sending := none, pollBad := 0, pollDropped := 0, reportsSent := 0 }

/-- Every block at its device reset values (R188). What a device reset does not reach is an argument: the command
queue, whether the forward lane recovers symbols, the frame memory (R17) and the draw counter; `held` says whether
the reset still lasts. -/
def State.afterReset (held : Bool) (pending : List Instr) (signal : Bool) (mem : List Host.Cell) (draws : Nat) :
    State :=
  { pending := pending, held := held, now := 0, loader := .reset, timing := .reset, role := .reset, roster := .reset,
    presentation := .reset, slots := .reset, ringIn := .reset, ringOut := .reset, link := .reset signal,
    ingest := .reset, transfer := none, scan := .reset, report := .reset, notices := 0, mem := mem, draws := draws }

/-- The machine right after reset: the reset has ended, the station is CONFIGURING and its read is under way (R183,
R188). -/
def State.reset : State :=
  State.afterReset false [] false [] 0

end Sys2Proof.Machine
end

