-- ==== Sys2Proof/Machine/Flags.lean ====
section
/-! DEFINITION. Serial order, saturating counters, the notice set and the setters of the state's blocks. -/

namespace Sys2Proof.Machine

/-! ### Serial order -/

/-- "A 16-bit serial value a is later than b when (a − b) mod 65,536 lies in 1..32,767" (Terms, "later than"). -/
def laterThan (a b : BitVec 16) : Bool :=
  decide (1 ≤ (a - b).toNat ∧ (a - b).toNat ≤ 32767)

/-- Ascending serial order: each value later than the one before it (Terms, "serial order"; R49). -/
def ascending : List (BitVec 16) → Bool
  | [] => true
  | [_] => true
  | a :: b :: rest => laterThan b a && ascending (b :: rest)

/-! ### Counters -/

/-- One count of a saturating 16-bit counter (Conventions, "Counters"). -/
def bump (c : Counter) : Counter :=
  if c = 65535#16 then c else c + 1#16

/-- `n` counts at once. -/
def bumpBy (n : Nat) (c : Counter) : Counter :=
  BitVec.ofNat 16 (min 65535 (c.toNat + n))

/-! ### The setters of the blocks -/

def State.setHeld (s : State) (v : Bool) : State := { s with held := v }
def State.setNow (s : State) (v : Tick) : State := { s with now := v }
def State.setLoader (s : State) (v : Loader) : State := { s with loader := v }
def State.setTiming (s : State) (v : TimingUnit) : State := { s with timing := v }
def State.setRole (s : State) (v : RoleUnit) : State := { s with role := v }
def State.setRoster (s : State) (v : RosterUnit) : State := { s with roster := v }
def State.setPresentation (s : State) (v : Presentation) : State := { s with presentation := v }
def State.setSlots (s : State) (v : SlotManager) : State := { s with slots := v }
def State.setRingIn (s : State) (v : RingReceiver) : State := { s with ringIn := v }
def State.setRingOut (s : State) (v : RingTransmitter) : State := { s with ringOut := v }
def State.setLink (s : State) (v : LinkReceiver) : State := { s with link := v }
def State.setIngest (s : State) (v : Assembler) : State := { s with ingest := v }
def State.setTransfer (s : State) (v : Option Transfer) : State := { s with transfer := v }
def State.setScan (s : State) (v : ScanOut) : State := { s with scan := v }
def State.setReport (s : State) (v : ReportUnit) : State := { s with report := v }
def State.setNotices (s : State) (v : BitVec 16) : State := { s with notices := v }
def State.setMem (s : State) (v : List Host.Cell) : State := { s with mem := v }
def State.setDraws (s : State) (v : Nat) : State := { s with draws := v }

/-! ### The notice set -/

/-- The ten notices (R177). -/
inductive Notice where
  | rosterChanged
  | roleChanged
  | lockChanged
  | ringChanged
  | miss
  | linkError
  | ingestError
  | addressConflict
  | pollOverrun
  | periodMismatch
  deriving DecidableEq, Repr

/-- The bit of a notice in the 16-bit value that begins every report payload (13.6). -/
def Notice.bit : Notice → Nat
  | .rosterChanged => 0
  | .roleChanged => 1
  | .lockChanged => 2
  | .ringChanged => 3
  | .miss => 4
  | .linkError => 5
  | .ingestError => 6
  | .addressConflict => 7
  | .pollOverrun => 8
  | .periodMismatch => 9

/-- A block raises a notice into the set; one already held leaves the set as it was (R177). -/
def State.raise (n : Notice) (s : State) : State :=
  s.setNotices (s.notices ||| BitVec.twoPow 16 n.bit)

/-- The notice set holds a notice. -/
def State.holds (n : Notice) (s : State) : Bool :=
  s.notices.getLsbD n.bit

/-- ATTN_N is driven low while the notice set holds at least one notice, and released while it is empty (R177).
While a device reset lasts the set is empty (R182). -/
def State.attnLow (s : State) : Bool :=
  s.notices != 0

/-! ### Station state -/

/-- The settled configuration while the station is RUNNING or WITHDRAWN. -/
def State.active (s : State) : Option Settings :=
  match s.loader.station with
  | .running => s.loader.settled
  | .withdrawn => s.loader.settled
  | .configuring => none
  | .configFault => none

/-- The frame period T = L × (VB + H) (R185). -/
def Settings.period (c : Settings) : Nat :=
  c.lineTicks * (c.vb + c.h)

/-- The segment delay that a departing BEAT takes: the configured one, and 0 while none is configured (R120, R128). -/
def State.segmentDelay (s : State) : Nat :=
  match s.active with
  | some c => c.segmentDelay
  | none => 0

/-- The chip select of the configuration memory port is asserted while the read is under way (R183, R188). -/
def State.chipSelect (s : State) : Bool :=
  !s.held && s.loader.station == .configuring

/-- The outputs of the configuration memory port (R183): the chip select, the SPI clock, and the command and address bytes
that go out in the read before the image comes in. -/
structure ConfigPort where
  chipSelect : Bool
  clockRuns : Bool
  sends : List Byte
  deriving DecidableEq, Repr

/-- The configuration memory port: selected and clocked while the read is under way; at its completion the chip select is
released and the clock stops, and the port stays idle until the next device reset (R183, R188). -/
def State.configPort (s : State) : ConfigPort :=
  { chipSelect := s.chipSelect, clockRuns := s.chipSelect, sends := if s.chipSelect then Config.readCommand else [] }

end Sys2Proof.Machine
end

