-- ==== Sys2Proof/Machine/Operands.lean ====
section
/-! DEFINITION. The layouts of the chapter Formats: line symbols, the header check code, the CRC, ring and source
link headers, payloads, pixel groups and the configuration image. -/

namespace Sys2Proof.Machine

/-! ### Bytes -/

/-- Byte `i` of a list of bytes, 0 beyond its end. -/
def byteAt (bs : List Byte) (i : Nat) : Byte := bs.getD i 0

/-- A 16-bit value of two bytes, the most significant one first (13, "Bit and byte layouts"). -/
def word16 (hi lo : Byte) : BitVec 16 := hi ++ lo

/-- The two bytes of a 16-bit value, the most significant one first. -/
def bytes16 (w : BitVec 16) : List Byte := [w.extractLsb' 8 8, w.extractLsb' 0 8]

/-- The three bytes of a 24-bit value, the most significant one first. -/
def bytes24 (w : BitVec 24) : List Byte := [w.extractLsb' 16 8, w.extractLsb' 8 8, w.extractLsb' 0 8]

/-- The four bytes of a 32-bit value, the most significant one first. -/
def bytes32 (w : BitVec 32) : List Byte :=
  [w.extractLsb' 24 8, w.extractLsb' 16 8, w.extractLsb' 8 8, w.extractLsb' 0 8]

/-- One byte that holds a small number. -/
def byteOf (n : Nat) : Byte := BitVec.ofNat 8 n

/-! ### Line symbols (R190) -/

/-- A line symbol as a receiver takes it. -/
inductive LineSymbol where
  | data (b : Byte)
  | startMarker
  | fill
  deriving DecidableEq, Repr

/-- How a received 10-bit symbol is taken: its 2-bit code (the two bits sent first, in the order of the table of
R190) and its 8 bits. -/
def takeSymbol (code : BitVec 2) (bits : Byte) : LineSymbol :=
  if code = 0b01#2 then .data bits
  else if code = 0b10#2 ∧ bits = 0xF0#8 then .startMarker
  else .fill

/-- The symbol a sender sends. -/
def sendSymbol : LineSymbol → BitVec 2 × Byte
  | .data b => (0b01#2, b)
  | .startMarker => (0b10#2, 0xF0#8)
  | .fill => (0b10#2, 0x0F#8)

/-- The ten bits of a symbol in the order in which they are sent: the prefix first, then bit 0 first (R190). The two
bits of the prefix go in the order in which the table writes them (log 29). -/
def serialBits (code : BitVec 2) (bits : Byte) : List Bool :=
  [code.getLsbD 1, code.getLsbD 0] ++ (List.range 8).map bits.getLsbD

/-- A symbol as its sender sends it, bit by bit (R190). -/
def LineSymbol.serial (x : LineSymbol) : List Bool := serialBits (sendSymbol x).1 (sendSymbol x).2

/-- Bit `i` of received bits. -/
def serialBit (bits : List Bool) (i : Nat) : BitVec 1 := BitVec.ofBool (bits.getD i false)

/-- Ten received bits, as a receiver takes them (R190). -/
def receiveSerial (bits : List Bool) : LineSymbol :=
  takeSymbol (serialBit bits 0 ++ serialBit bits 1)
    (serialBit bits 9 ++ serialBit bits 8 ++ serialBit bits 7 ++ serialBit bits 6 ++ serialBit bits 5 ++
      serialBit bits 4 ++ serialBit bits 3 ++ serialBit bits 2)

/-! ### The header check code (13.2, R191) -/

/-- The columns c(0) to c(55), one row of the table of 13.2 per header byte. -/
def headerColumns : List Byte :=
  [0x07, 0x0B, 0x0D, 0x0E, 0x13, 0x15, 0x16, 0x19] ++
  [0x1A, 0x1C, 0x23, 0x25, 0x26, 0x29, 0x2A, 0x2C] ++
  [0x31, 0x32, 0x34, 0x38, 0x43, 0x45, 0x46, 0x49] ++
  [0x4A, 0x4C, 0x51, 0x52, 0x54, 0x58, 0x61, 0x62] ++
  [0x64, 0x68, 0x70, 0x83, 0x85, 0x86, 0x89, 0x8A] ++
  [0x8C, 0x91, 0x92, 0x94, 0x98, 0xA1, 0xA2, 0xA4] ++
  [0xA8, 0xB0, 0xC1, 0xC2, 0xC4, 0xC8, 0xD0, 0xE0]

/-- Header bit i is bit (i mod 8) of header byte (i div 8), over the 7 data bytes (13.2). -/
def packHeader (bs : List Byte) : HeaderBits :=
  byteAt bs 6 ++ byteAt bs 5 ++ byteAt bs 4 ++ byteAt bs 3 ++ byteAt bs 2 ++ byteAt bs 1 ++ byteAt bs 0

/-- The 7 data bytes of the header bits. -/
def unpackHeader (h : HeaderBits) : List Byte :=
  [h.extractLsb' 0 8, h.extractLsb' 8 8, h.extractLsb' 16 8, h.extractLsb' 24 8, h.extractLsb' 32 8,
    h.extractLsb' 40 8, h.extractLsb' 48 8]

/-- The exclusive-or of the columns of the header bits that are set, from header bit `i` on. -/
def checkFrom (h : HeaderBits) : Nat → List Byte → Byte
  | _, [] => 0
  | i, c :: cs => (if h.getLsbD i then c else 0) ^^^ checkFrom h (i + 1) cs

/-- The check byte over the 7 data bytes (R191): bit j is the exclusive-or of every header bit whose column has
bit j set. -/
def checkByte (h : HeaderBits) : Byte := checkFrom h 0 headerColumns

/-- The 8 bytes of a header as sent: its 7 data bytes and the check byte. -/
def protectHeader (h : HeaderBits) : List Byte := unpackHeader h ++ [checkByte h]

/-- The outcome of the header check (R99, R135). -/
inductive HeaderCheck where
  | good (h : HeaderBits)
  | corrected (h : HeaderBits)
  | bad
  deriving DecidableEq, Repr

/-- The syndrome values of weight 1: the check byte alone was hit (R191). -/
def checkByteHits : List Byte := [1, 2, 4, 8, 16, 32, 64, 128]

/-- Decoding of the syndrome (R99, R135, R191). -/
def checkSyndrome (h : HeaderBits) (syndrome : Byte) : HeaderCheck :=
  if syndrome = 0 then .good h
  else if checkByteHits.contains syndrome then .corrected h
  else match headerColumns.idxOf? syndrome with
    | some i => .corrected (h ^^^ BitVec.twoPow 56 i)
    | none => .bad

/-- The check of 8 received header bytes. -/
def checkHeader (bs : List Byte) : HeaderCheck :=
  checkSyndrome (packHeader bs) (checkByte (packHeader bs) ^^^ byteAt bs 7)

/-! ### CRC-16 (R192) -/

/-- One data bit taken into the remainder. -/
def crcBit (r : BitVec 16) (d : Bool) : BitVec 16 :=
  if r.getLsbD 15 != d then (r <<< 1) ^^^ 0x1021#16 else r <<< 1

/-- One byte taken, most significant bit first. -/
def crcByte (r : BitVec 16) (b : Byte) : BitVec 16 :=
  [7, 6, 5, 4, 3, 2, 1, 0].foldl (fun r i => crcBit r (b.getLsbD i)) r

/-- The CRC-16 of a payload or image: generator 0x1021, start 0xFFFF, no final inversion. -/
def crc16 (bs : List Byte) : BitVec 16 := bs.foldl crcByte 0xFFFF#16

/-- A payload as sent: absent when empty, otherwise the payload and its CRC, high byte first (R94). -/
def protectPayload (payload : List Byte) : List Byte :=
  if payload = [] then [] else payload ++ bytes16 (crc16 payload)

/-- The CRC check of payload and CRC bytes as received, the payload being the first `n` bytes (R105, R140). -/
def crcGood (n : Nat) (body : List Byte) : Bool :=
  crc16 (body.take n) == word16 (byteAt body n) (byteAt body (n + 1))

/-! ### Ring headers (13.4) -/

/-- The fields of a ring header. -/
def ringHeader (h : HeaderBits) : RingHeader :=
  { kind := h.extractLsb' 0 8, group := h.extractLsb' 8 3, origin := h.extractLsb' 11 5,
    sequence := h.extractLsb' 16 8, hops := h.extractLsb' 24 6, taint := h.getLsbD 30,
    zeroHops := h.extractLsb' 31 1, length := h.extractLsb' 32 6, zeroLength := h.extractLsb' 38 2,
    delay := h.extractLsb' 40 8 ++ h.extractLsb' 48 8 }

/-- The header bits of a ring header. -/
def RingHeader.bits (r : RingHeader) : HeaderBits :=
  r.delay.extractLsb' 0 8 ++ r.delay.extractLsb' 8 8 ++ r.zeroLength ++ r.length ++ r.zeroHops ++
    BitVec.ofBool r.taint ++ r.hops ++ r.sequence ++ r.origin ++ r.group ++ r.kind

/-- Ring kind codes (13.4). -/
def ringBeat : Byte := 0x01
def ringStanding : Byte := 0x02
def ringLeave : Byte := 0x03

/-- The ring kind code of an own packet. -/
def OwnKind.code : OwnKind → Byte
  | .beat => ringBeat
  | .standing => ringStanding
  | .leave => ringLeave

/-- The size of a ring packet: 8 bytes when Length is 0, and 10 + Length otherwise (R94, R113). -/
def ringSize (length : Nat) : Nat :=
  if length = 0 then 8 else 10 + length

def RingHeader.size (r : RingHeader) : Nat := ringSize r.length.toNat

/-- The bytes of a packet as it leaves on RING OUT (R119, R121): the protected header, then the body. -/
def ringBytes (r : RingHeader) (body : List Byte) : List Byte := protectHeader r.bits ++ body

/-! ### Source link headers (13.5) -/

/-- The fields of a source link header; bits 6–7 of byte 5 are not examined. -/
def linkHeader (h : HeaderBits) : LinkHeader :=
  { kind := h.extractLsb' 0 8, a := h.extractLsb' 8 8 ++ h.extractLsb' 16 8,
    b := h.extractLsb' 24 8 ++ h.extractLsb' 32 8, length := h.extractLsb' 40 6 ++ h.extractLsb' 48 8 }

/-- The header bits of a source link header, its zero positions 0. -/
def LinkHeader.bits (l : LinkHeader) : HeaderBits :=
  l.length.extractLsb' 0 8 ++ (0#2 : BitVec 2) ++ l.length.extractLsb' 8 6 ++ l.b.extractLsb' 0 8 ++
    l.b.extractLsb' 8 8 ++ l.a.extractLsb' 0 8 ++ l.a.extractLsb' 8 8 ++ l.kind

/-- The source link kinds that the receiver takes (13.5, R130). -/
inductive LinkKind where
  | frameBegin
  | line
  | frameEnd
  | filler
  | poll
  | clear
  | linkReset
  | withdraw
  | rejoin
  deriving DecidableEq, Repr

/-- The kind of a code; REPORT and unassigned codes are unknown (R137). -/
def LinkKind.ofCode (k : Byte) : Option LinkKind :=
  if k = 0x10 then some .frameBegin
  else if k = 0x11 then some .line
  else if k = 0x12 then some .frameEnd
  else if k = 0x13 then some .filler
  else if k = 0x20 then some .poll
  else if k = 0x21 then some .clear
  else if k = 0x22 then some .linkReset
  else if k = 0x23 then some .withdraw
  else if k = 0x24 then some .rejoin
  else none

/-- The kind code of REPORT, return lane only (13.5). -/
def reportKindCode : Byte := 0x30

/-- What becomes of a source link header once its check has passed (R136 to R139), examined in that order. -/
inductive LinkFate where
  /-- Length above 8,192 (R136) -/
  | tooLong
  /-- a kind not listed in R130 (R137) -/
  | unknown
  /-- a Length that the kind does not take (R138) -/
  | wrongLength
  /-- a FILLER of any Length (R139) -/
  | filler
  /-- a LINE whose payload follows (R140) -/
  | linePayload
  /-- complete at its header (R141) -/
  | complete (k : LinkKind)
  deriving DecidableEq, Repr

def linkFate (l : LinkHeader) : LinkFate :=
  if Config.maxLinkLength < l.length.toNat then .tooLong
  else match LinkKind.ofCode l.kind with
    | none => .unknown
    | some .filler => .filler
    | some .line => if l.length = 0 then .wrongLength else .linePayload
    | some k => if l.length = 0 then .complete k else .wrongLength

/-! ### Codes of enumerated fields (13.4, 13.6): positions in the state lists, from 0 -/

def Role.code : Role → BitVec 2
  | .listening => 0
  | .follower => 1
  | .origin => 2
  | .standby => 3

def Role.ofCode (c : BitVec 2) : Role :=
  if c = 0 then .listening else if c = 1 then .follower else if c = 2 then .origin else .standby

def Lock.code : Lock → BitVec 3
  | .free => 0
  | .acquiring => 1
  | .locked => 2
  | .holdover => 3
  | .reference => 4

/-- 5 to 7 are refused (13.4). -/
def Lock.ofCode (c : BitVec 3) : Option Lock :=
  if c = 0 then some .free
  else if c = 1 then some .acquiring
  else if c = 2 then some .locked
  else if c = 3 then some .holdover
  else if c = 4 then some .reference
  else none

def RingState.code : RingState → BitVec 2
  | .unknown => 0
  | .intact => 1
  | .broken => 2

/-- 3 is refused (13.4). -/
def RingState.ofCode (c : BitVec 2) : Option RingState :=
  if c = 0 then some .unknown else if c = 1 then some .intact else if c = 2 then some .broken else none

/-! ### Ring payloads (13.4) -/

/-- `n` 16-bit values from byte `i` of a payload. -/
def words16 (bs : List Byte) : Nat → Nat → List (BitVec 16)
  | _, 0 => []
  | i, n + 1 => word16 (byteAt bs i) (byteAt bs (i + 1)) :: words16 bs (i + 2) n

/-- The payload of a STANDING, absent where the content check of R49 refuses it: Length is not 8 + 2n, n above 3, a
code outside those named, or frame numbers not in ascending serial order. `bs` has Length bytes. -/
def parseStanding (bs : List Byte) : Option Standing :=
  let b0 := byteAt bs 0
  let n := (byteAt bs 7).toNat
  let list := words16 bs 8 n
  match Lock.ofCode (b0.extractLsb' 3 3), RingState.ofCode (b0.extractLsb' 6 2) with
  | some lock, some ring =>
    if n ≤ 3 ∧ bs.length = 8 + 2 * n ∧ (byteAt bs 1).extractLsb' 2 6 = 0 ∧ ascending list = true then
      some
        { capable := b0.getLsbD 0, role := Role.ofCode (b0.extractLsb' 1 2), lock := lock, ring := ring,
          conflict := (byteAt bs 1).getLsbD 0, mismatch := (byteAt bs 1).getLsbD 1,
          shown := if (byteAt bs 6).getLsbD 0 then some (word16 (byteAt bs 2) (byteAt bs 3)) else none,
          epoch := word16 (byteAt bs 4) (byteAt bs 5), list := list }
    else none
  | _, _ => none

/-- The payload of a STANDING (R47, 13.4). -/
def Standing.payload (x : Standing) : List Byte :=
  [x.ring.code ++ x.lock.code ++ x.role.code ++ BitVec.ofBool x.capable,
    (0#6 : BitVec 6) ++ BitVec.ofBool x.mismatch ++ BitVec.ofBool x.conflict] ++
  bytes16 (x.shown.getD 0) ++ bytes16 x.epoch ++ [byteOf x.shown.isSome.toNat, byteOf x.list.length] ++
  x.list.flatMap bytes16

/-- The payload of a BEAT (13.4); bits 1–7 of byte 2 are not examined. -/
def parseBeat (bs : List Byte) : Beat :=
  { epoch := word16 (byteAt bs 0) (byteAt bs 1),
    decision := if (byteAt bs 2).getLsbD 0 then some (word16 (byteAt bs 3) (byteAt bs 4)) else none,
    period := byteAt bs 5 ++ byteAt bs 6 ++ byteAt bs 7, participants := byteAt bs 8 }

def Beat.payload (x : Beat) : List Byte :=
  bytes16 x.epoch ++ [byteOf x.decision.isSome.toNat] ++ bytes16 (x.decision.getD 0) ++ bytes24 x.period ++
    [x.participants]

/-- The payload of a LEAVE with reason WITHDRAWN (13.4). -/
def leavePayload : List Byte := [0x01]

/-! ### Pixel groups (13.8) and their conversion (R151) -/

/-- Pixels per group (R150). -/
def PixelFormat.groupPixels : PixelFormat → Nat
  | .p24 => 1
  | .p16 => 1
  | .p12 => 2
  | .p30 => 4

/-- Bytes per group (R150). -/
def PixelFormat.groupBytes : PixelFormat → Nat
  | .p24 => 3
  | .p16 => 2
  | .p12 => 3
  | .p30 => 15

/-- A 5-bit value v becomes 8v + (v ÷ 4) (R151). -/
def widen5 (v : BitVec 5) : Byte := BitVec.ofNat 8 (8 * v.toNat + v.toNat / 4)

/-- A 6-bit value v becomes 4v + (v ÷ 16) (R151). -/
def widen6 (v : BitVec 6) : Byte := BitVec.ofNat 8 (4 * v.toNat + v.toNat / 16)

/-- A 4-bit value v becomes 17v (R151). -/
def widen4 (v : BitVec 4) : Byte := BitVec.ofNat 8 (17 * v.toNat)

/-- A 10-bit value v becomes v ÷ 4 (R151). -/
def narrow10 (v : BitVec 10) : Byte := BitVec.ofNat 8 (v.toNat / 4)

/-- A pixel of its components. -/
def pixelOf (red green blue : Byte) : Pixel := red ++ green ++ blue

/-- The pixel of a 16-bit P16 value (13.8). -/
def pixel16 (v : BitVec 16) : Pixel :=
  pixelOf (widen5 (v.extractLsb' 11 5)) (widen6 (v.extractLsb' 5 6)) (widen5 (v.extractLsb' 0 5))

/-- Pixel `i` of a 120-bit P30 value (13.8): 30-bit units from the top, red highest. -/
def pixel30 (v : BitVec 120) (i : Nat) : Pixel :=
  pixelOf (narrow10 (v.extractLsb' (110 - 30 * i) 10)) (narrow10 (v.extractLsb' (100 - 30 * i) 10))
    (narrow10 (v.extractLsb' (90 - 30 * i) 10))

/-- The pixels of a payload of whole groups, in 24-bit form. -/
def pixels24 : List Byte → List Pixel
  | r :: g :: b :: rest => pixelOf r g b :: pixels24 rest
  | _ => []

def pixels16 : List Byte → List Pixel
  | hi :: lo :: rest => pixel16 (word16 hi lo) :: pixels16 rest
  | _ => []

def pixels12 : List Byte → List Pixel
  | x :: y :: z :: rest =>
    pixelOf (widen4 (x.extractLsb' 4 4)) (widen4 (x.extractLsb' 0 4)) (widen4 (y.extractLsb' 4 4)) ::
      pixelOf (widen4 (y.extractLsb' 0 4)) (widen4 (z.extractLsb' 4 4)) (widen4 (z.extractLsb' 0 4)) ::
      pixels12 rest
  | _ => []

def pixels30 : List Byte → List Pixel
  | b0 :: b1 :: b2 :: b3 :: b4 :: b5 :: b6 :: b7 :: b8 :: b9 :: b10 :: b11 :: b12 :: b13 :: b14 :: rest =>
    let v : BitVec 120 :=
      b0 ++ b1 ++ b2 ++ b3 ++ b4 ++ b5 ++ b6 ++ b7 ++ b8 ++ b9 ++ b10 ++ b11 ++ b12 ++ b13 ++ b14
    pixel30 v 0 :: pixel30 v 1 :: pixel30 v 2 :: pixel30 v 3 :: pixels30 rest
  | _ => []

def convertPixels : PixelFormat → List Byte → List Pixel
  | .p24, bs => pixels24 bs
  | .p16, bs => pixels16 bs
  | .p12, bs => pixels12 bs
  | .p30, bs => pixels30 bs

/-- The three bytes of a pixel in frame memory: red, green, blue (R161). -/
def pixelBytes (p : Pixel) : List Byte := bytes24 p

/-! ### The configuration image (R183, R184, 13.7) -/

def PixelFormat.code : PixelFormat → BitVec 3
  | .p24 => 0
  | .p16 => 1
  | .p12 => 2
  | .p30 => 3

/-- 4 to 7 are out of range (13.7). -/
def PixelFormat.ofCode (c : BitVec 3) : Option PixelFormat :=
  if c = 0 then some .p24
  else if c = 1 then some .p16
  else if c = 2 then some .p12
  else if c = 3 then some .p30
  else none

def AdvancePolicy.code : AdvancePolicy → Bool
  | .next => false
  | .newest => true

/-- The fields of an image as they stand in it, in or out of range; a pixel format out of range is read as P24. -/
def imageSettings (bs : List Byte) : Settings :=
  { address := (byteAt bs 1).extractLsb' 0 5, group := (byteAt bs 2).extractLsb' 0 3,
    capable := (byteAt bs 2).getLsbD 3, policy := if (byteAt bs 2).getLsbD 4 then .newest else .next,
    format := (PixelFormat.ofCode ((byteAt bs 3).extractLsb' 0 3)).getD .p24,
    slotCount := ((byteAt bs 3).extractLsb' 3 3).toNat,
    lineTicks := (word16 (byteAt bs 4) (byteAt bs 5)).toNat, vb := (byteAt bs 6).toNat,
    h := (word16 (byteAt bs 7) (byteAt bs 8)).toNat, w := (word16 (byteAt bs 9) (byteAt bs 10)).toNat,
    lockWindow := (word16 (byteAt bs 11) (byteAt bs 12)).toNat,
    slewLimit := (word16 (byteAt bs 13) (byteAt bs 14)).toNat,
    segmentDelay := (word16 (byteAt bs 15) (byteAt bs 16)).toNat,
    background := byteAt bs 17 ++ byteAt bs 18 ++ byteAt bs 19 }

/-- A number lies within a range, both ends included. -/
def within (lo hi n : Nat) : Bool := decide (lo ≤ n ∧ n ≤ hi)

/-- The first field out of its range, in the order of the table of R183. Group, origin-capable, advance policy and
background colour hold no value out of range. -/
def outOfRange (bs : List Byte) : Option ImageField :=
  let c := imageSettings bs
  if c.address = 31 then some .address
  else if (PixelFormat.ofCode ((byteAt bs 3).extractLsb' 0 3)).isNone then some .format
  else if !within 3 4 c.slotCount then some .slotCount
  else if !within 200 65535 c.lineTicks then some .lineTicks
  else if !within 2 255 c.vb then some .vb
  else if !within 64 1200 c.h then some .h
  else if !within 64 1920 c.w then some .w
  else if !within 1 65535 c.lockWindow then some .lockWindow
  else if !within 1 4095 c.slewLimit then some .slewLimit
  else if !within 0 4095 c.segmentDelay then some .segmentDelay
  else none

/-- Every byte and bit position that no field uses is zero (13.7). -/
def unusedZero (bs : List Byte) : Bool :=
  (byteAt bs 1).extractLsb' 5 3 == 0 && (byteAt bs 2).extractLsb' 5 3 == 0 && (byteAt bs 3).extractLsb' 6 2 == 0 &&
    byteAt bs 20 == 0 && byteAt bs 21 == 0

/-- The check of the 24 image bytes (R184): the settled configuration, or the cause given by the first check that
fails. -/
def checkImage (bs : List Byte) : Except FaultCause Settings :=
  if crc16 (bs.take 22) ≠ word16 (byteAt bs 22) (byteAt bs 23) then .error .imageCrc
  else if byteAt bs 0 ≠ Config.imageFormat then .error .formatCode
  else match outOfRange bs with
    | some f => .error (.fieldRange f)
    | none =>
      if !unusedZero bs then .error .unusedNonzero
      else if !within 500000 4000000 (imageSettings bs).period then .error .periodRange
      else .ok (imageSettings bs)

/-- Image bytes 0 to 21 of a configuration (13.7). -/
def Settings.imageBytes (c : Settings) : List Byte :=
  [Config.imageFormat, (0#3 : BitVec 3) ++ c.address,
    (0#3 : BitVec 3) ++ BitVec.ofBool c.policy.code ++ BitVec.ofBool c.capable ++ c.group,
    (0#2 : BitVec 2) ++ BitVec.ofNat 3 c.slotCount ++ c.format.code] ++
  bytes16 (BitVec.ofNat 16 c.lineTicks) ++ [byteOf c.vb] ++ bytes16 (BitVec.ofNat 16 c.h) ++
  bytes16 (BitVec.ofNat 16 c.w) ++ bytes16 (BitVec.ofNat 16 c.lockWindow) ++
  bytes16 (BitVec.ofNat 16 c.slewLimit) ++ bytes16 (BitVec.ofNat 16 c.segmentDelay) ++ bytes24 c.background ++ [0, 0]

/-- A whole image: bytes 0 to 21 and their CRC. -/
def Settings.image (c : Settings) : List Byte :=
  c.imageBytes ++ bytes16 (crc16 c.imageBytes)

/-- The row of a field in the table of R183, counted from 1 (13.6). -/
def ImageField.row : ImageField → Nat
  | .formatCode => 1
  | .address => 2
  | .group => 3
  | .capable => 4
  | .policy => 5
  | .format => 6
  | .slotCount => 7
  | .lineTicks => 8
  | .vb => 9
  | .h => 10
  | .w => 11
  | .lockWindow => 12
  | .slewLimit => 13
  | .segmentDelay => 14
  | .background => 15

/-! ### Report kinds (13.5) -/

def ReportKind.code : ReportKind → Nat
  | .ident => 1
  | .link => 2
  | .ingest => 3
  | .slots => 4
  | .roster => 5
  | .timing => 6
  | .present => 7
  | .ring => 8

def ReportKind.ofCode (c : Byte) : Option ReportKind :=
  if c = 1 then some .ident
  else if c = 2 then some .link
  else if c = 3 then some .ingest
  else if c = 4 then some .slots
  else if c = 5 then some .roster
  else if c = 6 then some .timing
  else if c = 7 then some .present
  else if c = 8 then some .ring
  else none

end Sys2Proof.Machine
end

