-- ==== Sys2Proof/Machine/Ops.lean ====
section
/-! DEFINITION. The named operations that every block shares: the frame memory, what passes between two commands,
the form of an event, and sets of line numbers. -/

namespace Sys2Proof.Machine

/-! ### Frame memory (R161) -/

/-- The canonical form: addresses strictly rising and inside the device, no entry equal to what an unlisted address
reads as. -/
abbrev Memory.wf (m : List Host.Cell) : Prop :=
  m.Pairwise (fun x y => x.1 < y.1) ∧ ∀ c ∈ m, c.1 < Config.frameMemoryBytes ∧ c.2 ≠ Config.unlistedByte

/-- The byte at an address. -/
def Memory.read (m : List Host.Cell) (a : Nat) : Byte :=
  (m.lookup a).getD Config.unlistedByte

/-- The listed cells of consecutive bytes from address `a` on. -/
def Memory.cells : Nat → List Byte → List Host.Cell
  | _, [] => []
  | a, b :: bs => if b = Config.unlistedByte then Memory.cells (a + 1) bs else (a, b) :: Memory.cells (a + 1) bs

/-- Consecutive bytes written from address `a` on. -/
def Memory.write (m : List Host.Cell) (a : Nat) (bs : List Byte) : List Host.Cell :=
  m.filter (fun c => decide (c.1 < a)) ++ Memory.cells a bs ++ m.filter (fun c => decide (a + bs.length ≤ c.1))

/-- The first address of line `line` of the region of slot `slot`: i × W × H × 3 + k × W × 3 (R161). -/
def Settings.lineAddress (c : Settings) (slot line : Nat) : Nat :=
  slot * (c.w * c.h * 3) + line * (c.w * 3)

/-- The line lies inside the device. -/
def Settings.lineInside (c : Settings) (slot line : Nat) : Bool :=
  decide (c.lineAddress slot line + c.w * 3 ≤ Config.frameMemoryBytes)

/-- The bytes of a line of W pixels; a list of another length is cut, or filled up with 0, to W pixels. -/
def lineBytes (w : Nat) (pixels : List Pixel) : List Byte :=
  ((pixels ++ List.replicate w 0).take w).flatMap pixelBytes

/-- A line write, whole (R161). -/
def Memory.writeLine (c : Settings) (m : List Host.Cell) (slot line : Nat) (pixels : List Pixel) : List Host.Cell :=
  Memory.write m (c.lineAddress slot line) (lineBytes c.w pixels)

/-- A line fetch, whole (R161). -/
def Memory.readLine (c : Settings) (m : List Host.Cell) (slot line : Nat) : List Pixel :=
  (List.range c.w).map fun j =>
    pixelOf (Memory.read m (c.lineAddress slot line + 3 * j)) (Memory.read m (c.lineAddress slot line + 3 * j + 1))
      (Memory.read m (c.lineAddress slot line + 3 * j + 2))

/-! ### Sets of line numbers -/

/-- A line number joins a strictly ascending list; no change if already there. -/
def insertLine (n : Nat) : List Nat → List Nat
  | [] => [n]
  | m :: ms => if n < m then n :: m :: ms else if n = m then m :: ms else m :: insertLine n ms

/-! ### What passes between two commands (logs 1 and 3) -/

/-- Ticks from `a` to `b`, both station times (R74: differences are formed modulo 2^32). -/
def ticksFrom (a b : Tick) : Nat := (b - a).toNat

/-- A difference of two stamps as a signed number; every difference the part forms is below 2^31 ticks (R74). -/
def signedTicks (a b : Tick) : Int := (b - a).toInt

/-- Station time goes on by the ticks given, but not past the next frame start, which must be taken first (R77; log
1). -/
def State.passTicks (d : Tick) (s : State) : State :=
  match s.timing.timer with
  | none => s.setNow (s.now + d)
  | some t =>
    if ticksFrom s.now t.next < 2147483648 then
      s.setNow (if d.toNat ≤ ticksFrom s.now t.next then s.now + d else t.next)
    else s

/-- The bytes of `bs` that a piece of which `taken` has come in can take while it stays short of `limit` + 1 bytes; the
rest is dropped (log 3). -/
def roomFor (limit : Nat) (taken bs : List Byte) : List Byte := bs.take (limit - taken.length)

/-- Data bytes taken on RING IN that complete nothing: at most 7 header bytes, or all but the last byte of payload
and CRC (R94, 6.2). Outside HEADER and PAYLOAD they are discarded. -/
def RingReceiver.collect (bs : List Byte) (r : RingReceiver) : RingReceiver :=
  match r.packet with
  | none => r
  | some p =>
    match p.header with
    | none => { r with packet := some { p with taken := p.taken ++ roomFor 7 p.taken bs } }
    | some h => { r with packet := some { p with taken := p.taken ++ roomFor (h.length.toNat + 1) p.taken bs } }

/-- Data bytes taken on the forward lane that complete nothing (8.2): at most 7 header bytes; in PAYLOAD they are
collected, in SKIP counted off, and REMAINING stays at least 1. -/
def LinkReceiver.collect (bs : List Byte) (r : LinkReceiver) : LinkReceiver :=
  match r.packet with
  | none => r
  | some p =>
    match p.header with
    | none => { r with packet := some { p with taken := p.taken ++ roomFor 7 p.taken bs } }
    | some _ =>
      if r.state = .payload then
        { r with
          packet := some
            { p with taken := p.taken ++ bs.take (p.remaining - 1), remaining := p.remaining - (bs.take (p.remaining - 1)).length } }
      else { r with packet := some { p with remaining := p.remaining - (bs.take (p.remaining - 1)).length } }

/-- Image bytes taken while the station is CONFIGURING, at most 23 (R183). -/
def Loader.collect (bs : List Byte) (l : Loader) : Loader :=
  match l.station with
  | .configuring => { l with image := l.image ++ roomFor 23 l.image bs }
  | .configFault => l
  | .running => l
  | .withdrawn => l

/-- What has passed since the command before. -/
def State.elapse (e : Elapsed) (s : State) : State :=
  let s1 := s.passTicks e.ticks
  let s2 := s1.setRingIn (s1.ringIn.collect e.ringIn)
  let s3 := s2.setLink (s2.link.collect e.linkIn)
  s3.setLoader (s3.loader.collect e.imageIn)

end Sys2Proof.Machine

namespace Sys2Proof

/-! ### The order of the blocks at a frame start (log 7) -/

/-- `p` stands before `q` in a list of frame parts. -/
def FramePart.before (l : List FramePart) (p q : FramePart) : Bool :=
  decide (l.idxOf p < l.idxOf q)

/-- An order that the manual allows: every part once; the role is settled before the composition (R26) and before
the STANDING is offered (R61), the presentation step is made before the composition (R26), and the Scan-Out Unit first
settles the frame that has ended (R167). The composition and the STANDING offer reach RING OUT in either order (R118), and
a STANDING may begin before the presentation or after it (R47). -/
def FrameOrder.valid (o : FrameOrder) : Bool :=
  o.parts.length == 8 &&
  [FramePart.role, .settle, .present, .firstLine, .compose, .holds, .offer, .expire].all (o.parts.contains ·) &&
  FramePart.before o.parts .role .compose && FramePart.before o.parts .present .compose &&
  FramePart.before o.parts .role .offer && FramePart.before o.parts .settle .present &&
  FramePart.before o.parts .settle .firstLine

/-- The order taken where a command carries one that is not allowed. -/
def FrameOrder.canonical : List FramePart :=
  [.role, .settle, .present, .firstLine, .compose, .holds, .offer, .expire]

/-- The canonical order, with no ticks for the composition: where an order is asked for and none is used. -/
def FrameOrder.plain : FrameOrder := ⟨FrameOrder.canonical, 0⟩

/-- The order in which the blocks take the frame start. -/
def FrameOrder.taken (o : FrameOrder) : List FramePart :=
  if o.valid then o.parts else FrameOrder.canonical

end Sys2Proof

namespace Sys2Proof.Machine

/-! ### The form of an event -/

/-- An event at the part: while a device reset lasts the part is held in it and takes nothing (R188); otherwise what
has passed is accounted for and the event has its effect. -/
def onEvent (e : Elapsed) (effect : State → State) (s : State) : Host.Outcome State Fault Refusal :=
  if s.held then .next s else .next (effect (s.elapse e))

end Sys2Proof.Machine
end

