-- ==== Sys2Proof/Machine/Slots.lean ====
section
/-! DEFINITION. The Slot Manager (chapter 1): claim, eviction, completion, closing, abandonment, presentation. -/

namespace Sys2Proof.Machine

/-! ### Pins and eviction (R6, R7, R13) -/

/-- The frame whose COMPLETE slot is pinned, if one holds it: that of the pending decision (R6). -/
def State.pin (s : State) : Option FrameNo := s.presentation.decision.map Decision.frame

/-- The oldest unpinned frame of the complete list: its head, or the second entry when the head is pinned (R6). -/
def oldestUnpinned (pin : Option FrameNo) (complete : List FrameNo) : Option FrameNo :=
  complete.find? (fun f => decide (pin ≠ some f))

/-- The INDEX of the COMPLETE slot that holds a frame. -/
def SlotManager.completeIndex (m : SlotManager) (f : FrameNo) : Option Nat :=
  m.table.findIdx? (fun r => r.state == .complete && r.frame == some f)

/-- Eviction of the oldest unpinned COMPLETE slot: it becomes FREE, its frame leaves the complete list, EVICTED rises
(R7, R13). Absent where no such slot exists. -/
def SlotManager.evict (pin : Option FrameNo) (m : SlotManager) : Option (Nat × SlotManager) :=
  match oldestUnpinned pin m.complete with
  | none => none
  | some f =>
    match m.completeIndex f with
    | none => none
    | some i =>
      some (i, { m with table := m.table.set i .freed, complete := m.complete.erase f, evicted := bump m.evicted })

/-! ### Claiming (R7, R8) -/

/-- A claimed slot (R7): FILLING with FRAME = N, WRITTEN empty, PENDING 0, DAMAGED no. -/
def Slot.claimed (n : FrameNo) : Slot :=
  { state := .filling, frame := some n, written := [], pending := 0, damaged := false }

/-- A claim for frame N (R7): the FREE slot of lowest INDEX, otherwise the slot freed by eviction, otherwise refused
(R8: the answer is absent). -/
def SlotManager.claim (n : FrameNo) (pin : Option FrameNo) (m : SlotManager) : Option (Nat × SlotManager) :=
  match m.table.findIdx? (fun r => r.state == .free) with
  | some i => some (i, { m with table := m.table.set i (.claimed n) })
  | none =>
    match m.evict pin with
    | none => none
    | some (i, m') => some (i, { m' with table := m'.table.set i (.claimed n) })

/-! ### Completion and closing (R10, R12, R13) -/

/-- A slot becomes COMPLETE: its frame joins the tail of the complete list and FRAMES_COMPLETED rises (R10, R12). -/
def SlotManager.becomeComplete (i : Nat) (r : Slot) (m : SlotManager) : SlotManager :=
  { m with
    table := m.table.set i { r with state := .complete, pending := 0 }, complete := m.complete ++ r.frame.toList,
    framesCompleted := bump m.framesCompleted }

/-- The check of R13: when every record is COMPLETE, the oldest unpinned COMPLETE slot is evicted. -/
def SlotManager.completionCheck (pin : Option FrameNo) (m : SlotManager) : SlotManager :=
  if m.table.all (fun r => r.state == .complete) then
    match m.evict pin with
    | some (_, m') => m'
    | none => m
  else m

/-- A good close of slot `i` (R10): CLOSING while writes are pending, otherwise COMPLETE at once. -/
def SlotManager.closeGood (pin : Option FrameNo) (i : Nat) (m : SlotManager) : SlotManager :=
  match m.table[i]? with
  | none => m
  | some r =>
    if 0 < r.pending then { m with table := m.table.set i { r with state := .closing } }
    else (m.becomeComplete i r).completionCheck pin

/-- The completion of a write of line `line` of slot `i`, by the slot's state when it is taken (R12). In the states
FREE, COMPLETE and SHOWN no write of the slot exists and nothing changes (log 19). -/
def SlotManager.writeDone (pin : Option FrameNo) (i line : Nat) (m : SlotManager) : SlotManager :=
  match m.table[i]? with
  | none => m
  | some r =>
    match r.state with
    | .filling =>
      { m with table := m.table.set i { r with written := insertLine line r.written, pending := r.pending - 1 } }
    | .closing =>
      if 1 < r.pending then
        { m with table := m.table.set i { r with written := insertLine line r.written, pending := r.pending - 1 } }
      else (m.becomeComplete i { r with written := insertLine line r.written }).completionCheck pin
    | .draining => { m with table := m.table.set i .freed }
    | .free => m
    | .complete => m
    | .shown => m

/-! ### What the Frame Assembler tells of its slot (R3, R4) -/

/-- DAMAGED is set (R4). -/
def SlotManager.damage (i : Nat) (m : SlotManager) : SlotManager :=
  { m with table := m.table.modify i fun r => { r with damaged := true } }

/-- PENDING rises by 1 as a line write is queued (R3). -/
def SlotManager.queued (i : Nat) (m : SlotManager) : SlotManager :=
  { m with table := m.table.modify i fun r => { r with pending := r.pending + 1 } }

/-- DAMAGED of a slot. -/
def SlotManager.damaged (m : SlotManager) (i : Nat) : Bool :=
  match m.table[i]? with
  | some r => r.damaged
  | none => false

/-! ### Abandonment (R11) -/

/-- The transfer in progress is a write of slot `i` (R3). -/
def State.writing (s : State) (i : Nat) : Bool :=
  match s.transfer with
  | some (.write w) => w.slot == i
  | some (.fetch _ _) => false
  | none => false

/-- An abandoned record: DRAINING with PENDING 1, keeping FRAME, WRITTEN and DAMAGED, while a write of it is in
progress, and otherwise FREE (R2, R11). -/
def Slot.abandoned (writing : Bool) (r : Slot) : Slot :=
  if writing then { r with state := .draining, pending := 1 } else .freed

/-- Abandonment of slot `i` (R11): its queued writes leave the write queue, the others keep their order. -/
def State.abandonSlot (i : Nat) (s : State) : State :=
  let s1 := s.setIngest { s.ingest with queue := s.ingest.queue.filter (fun w => w.slot != i) }
  s1.setSlots { s1.slots with table := s1.slots.table.modify i (Slot.abandoned (s.writing i)) }

/-- Link reset at the Slot Manager (R18): the FILLING slot and every CLOSING slot are abandoned, which empties the
write queue. -/
def State.slotLinkReset (s : State) : State :=
  let s1 := s.setIngest { s.ingest with queue := [] }
  s1.setSlots
    { s1.slots with
      table := s1.slots.table.mapIdx fun i r =>
        if r.state == .filling || r.state == .closing then r.abandoned (s.writing i) else r }

/-! ### Presentation (R14) -/

/-- What a presentation of P makes of a record (R14). -/
def Slot.presented (p : FrameNo) (r : Slot) : Slot :=
  match r.state with
  | .complete =>
    match r.frame with
    | some f => if f = p then { r with state := .shown } else if laterThan p f then .freed else r
    | none => r
  | .shown => .freed
  | .free => r
  | .filling => r
  | .closing => r
  | .draining => r

/-- A COMPLETE record whose frame is earlier than P. -/
def Slot.skippedBy (p : FrameNo) (r : Slot) : Bool :=
  r.state == .complete &&
  match r.frame with
  | some f => decide (f ≠ p) && laterThan p f
  | none => false

/-- A present request for frame P (R14): the INDEX of the new SHOWN slot, or absent for "not held". -/
def SlotManager.present (p : FrameNo) (m : SlotManager) : Option (Nat × SlotManager) :=
  match m.completeIndex p with
  | none => none
  | some i =>
    some (i,
      { m with
        table := m.table.map (Slot.presented p),
        complete := m.complete.filter (fun f => decide (f ≠ p) && !laterThan p f),
        skipped := bumpBy (m.table.countP (Slot.skippedBy p)) m.skipped })

/-! ### The stale check (R147) -/

/-- A slot in FILLING, CLOSING or COMPLETE holds a frame to which N is not later. -/
def SlotManager.heldNotEarlier (n : FrameNo) (m : SlotManager) : Bool :=
  m.table.any fun r =>
    (r.state == .filling || r.state == .closing || r.state == .complete) &&
    match r.frame with
    | some f => !laterThan n f
    | none => false

end Sys2Proof.Machine
end

