-- ==== Sys2Proof/Machine/Scan.lean ====
section
/-! DEFINITION. The Frame Memory Controller and the Scan-Out Unit (chapter 10): grants, transfers, fetches, the lines
of a frame, cut frames, and the panel port. -/

namespace Sys2Proof.Machine

/-! ### Line buffers and fetch records (R165) -/

/-- Active line k is fetched into line buffer k mod 2 (R165). -/
def bufferOf (k : Nat) : Fin 2 := if k % 2 = 0 then 0 else 1

def ScanOut.buffer (u : ScanOut) (b : Fin 2) : LineBuffer := if b = 0 then u.even else u.odd

def ScanOut.setBuffer (b : Fin 2) (x : LineBuffer) (u : ScanOut) : ScanOut :=
  if b = 0 then { u with even := x } else { u with odd := x }

/-- A record is STALE from now on, if it is in progress (R167). -/
def FetchRecord.staled (r : FetchRecord) : FetchRecord :=
  if r.inProgress then { r with stale := true } else r

/-- The first WAITING record becomes IN_PROGRESS (R165). -/
def startFirst : List FetchRecord → List FetchRecord
  | [] => []
  | r :: rs => if r.inProgress then r :: startFirst rs else { r with inProgress := true } :: rs

/-! ### Grants (R162) -/

/-- The grant of an idle controller: the oldest waiting fetch, which takes its SLOT from the scan slot, otherwise the
head of the write queue, otherwise nothing (R162). -/
def State.grant (s : State) : State :=
  match s.transfer with
  | some _ => s
  | none =>
    match s.scan.records.find? (fun r => !r.inProgress), s.scan.slot with
    | some r, some i =>
      (s.setScan { s.scan with records := startFirst s.scan.records }).setTransfer (some (.fetch i r.line))
    | _, _ =>
      match s.ingest.queue with
      | [] => s
      | w :: ws => (s.setIngest { s.ingest with queue := ws }).setTransfer (some (.write w))

/-- A fetch of active line `k` is requested (R165): its buffer takes LINE and VALID no; a record joins the tail when
the scan slot is present. -/
def ScanOut.request (k : Nat) (u : ScanOut) : ScanOut :=
  let u1 := u.setBuffer (bufferOf k) { line := some k, valid := false, pixels := [] }
  match u.slot with
  | some _ =>
    { u1 with records := u1.records ++ [{ line := k, buffer := bufferOf k, inProgress := false, stale := false }] }
  | none => u1

/-- A fetch request reaches the controller (R162: a grant is made if it is idle). -/
def State.requestFetch (k : Nat) (s : State) : State :=
  (s.setScan (s.scan.request k)).grant

/-! ### Completion of a transfer (R163, R166) -/

/-- A fetch completion (R166): stored when its record is not STALE and its buffer still has the record's LINE,
otherwise discarded. -/
def ScanOut.fetchDone (pixels : List Pixel) (u : ScanOut) : ScanOut :=
  match u.records.find? (fun r => r.inProgress) with
  | none => u
  | some r =>
    let u1 := { u with records := u.records.erase r }
    if !r.stale && (u.buffer r.buffer).line == some r.line then
      { u1.setBuffer r.buffer { line := some r.line, valid := true, pixels := pixels } with fetches := bump u.fetches }
    else { u1 with staleFetch := bump u.staleFetch }

/-- The transfer in progress completes: the controller becomes idle, the result is handed on, and the next grant is
made (R163). -/
def State.transferDone (c : Settings) (t : Transfer) (s : State) : State :=
  let s1 := s.setTransfer none
  match t with
  | .write w =>
    let s2 := s1.setMem (Memory.writeLine c s1.mem w.slot w.line w.pixels)
    (s2.setSlots (s2.slots.writeDone s2.pin w.slot w.line)).grant
  | .fetch i line => (s1.setScan (s1.scan.fetchDone (Memory.readLine c s1.mem i line))).grant

/-- The line that a transfer reaches lies inside the frame memory. -/
def Transfer.inside (c : Settings) : Transfer → Bool
  | .write w => c.lineInside w.slot w.line
  | .fetch i line => c.lineInside i line

/-! ### The lines of a frame (R165, R168) -/

/-- In an underrun the fetch record of the line is cleared: a WAITING record is withdrawn, an IN_PROGRESS record is
marked STALE (R168). -/
def clearFetch (k : Nat) (records : List FetchRecord) : List FetchRecord :=
  records.filterMap fun r =>
    if r.line == k && r.buffer == bufferOf k && !r.stale then
      if r.inProgress then some { r with stale := true } else none
    else some r

/-- The line start of active line `k` at the line buffers and the output line (R168). -/
def ScanOut.takeLine (k : Nat) (u : ScanOut) : ScanOut :=
  let b := u.buffer (bufferOf k)
  let u1 := u.setBuffer (bufferOf k) .released
  if b.line = some k ∧ b.valid = true then { u1 with output := .pixels b.pixels }
  else
    match u.slot with
    | some _ =>
      { u1 with output := .background, underrun := bump u.underrun, records := clearFetch k u.records }
    | none => { u1 with output := .background }

/-- Frame line `f` of the frame timer starts (R165, R168, R169): the fetches of active lines 0 and 1 are requested at
frame lines VB − 2 and VB − 1; active line k is taken and the fetch of line k + 2 requested; extra blanking lines
put background out. -/
def State.beginLine (c : Settings) (f : Nat) (s : State) : State :=
  if f < c.vb then
    if f + 2 = c.vb then s.requestFetch 0
    else if f + 1 = c.vb then s.requestFetch 1
    else s
  else if f < c.vb + c.h then
    let s1 := s.setScan (s.scan.takeLine (f - c.vb))
    if f - c.vb + 2 < c.h then s1.requestFetch (f - c.vb + 2) else s1
  else s.setScan { s.scan with output := .background }

/-! ### Frame start and presentation at the Scan-Out Unit (R164, R167) -/

/-- The Scan-Out Unit settles the frame that has ended (R167); `cut` says whether its frame start came before its
last active line had run in full (R169). -/
def ScanOut.settle (cut : Bool) (u : ScanOut) : ScanOut :=
  { u with
    records := (u.records.filter (·.inProgress)).map FetchRecord.staled, even := .released, odd := .released,
    output := .background, cutFrames := if cut then bump u.cutFrames else u.cutFrames }

/-- Part of R164: a buffer whose LINE is present gets VALID no, and a WAITING record if it holds none that is not
STALE. -/
def ScanOut.refetch (b : Fin 2) (u : ScanOut) : ScanOut :=
  match (u.buffer b).line with
  | none => u
  | some k =>
    let u1 := u.setBuffer b { line := some k, valid := false, pixels := [] }
    if u.records.any (fun r => r.buffer == b && !r.stale) then u1
    else { u1 with records := u1.records ++ [{ line := k, buffer := b, inProgress := false, stale := false }] }

/-- A presentation at the Scan-Out Unit (R164): the scan slot takes the INDEX, every IN_PROGRESS record becomes STALE,
and the fetches of the lines already asked for are made again, buffer 0 first. -/
def ScanOut.present (i : Nat) (u : ScanOut) : ScanOut :=
  (({ u with slot := some i, records := u.records.map FetchRecord.staled } : ScanOut).refetch 0).refetch 1

/-! ### The panel port (R170) -/

/-- The panel port's outputs; of the pixel clock, whether it runs. -/
structure PanelPins where
  pixelClock : Bool
  hsync : Bool
  vsync : Bool
  dataEnable : Bool
  data : Pixel
  deriving DecidableEq, Repr

/-- Pixel `j` of the output line. -/
def OutputLine.pixel (background : Pixel) (j : Nat) : OutputLine → Pixel
  | .background => background
  | .pixels p => p.getD j 0

/-- The W pixels of the output line in the order in which an active line sends them; a background line sends the
configured background colour for all W (R170). -/
def OutputLine.sent (c : Settings) (out : OutputLine) : List Pixel :=
  (List.range c.w).map fun j => out.pixel c.background j

/-- The horizontal sync and the horizontal blanking of a line, in whole ticks (R170). -/
def Settings.syncTicks (c : Settings) : Nat := c.lineTicks / 16

def Settings.blankTicks (c : Settings) : Nat := c.lineTicks / 8

/-- How long a pixel stands, in W-ths of a tick: the W pixels share the active window evenly (R170). -/
def Settings.pixelTime (c : Settings) : Nat := c.lineTicks - c.blankTicks

/-- The outputs `u` W-ths of a tick into frame line `f` (R170): horizontal sync over the first sixteenth of L, vertical
sync over blanking lines 0 and 1, and in an active line the W pixels of the output line at an even rate over the active
window, which begins after the first eighth: each stands for the same L − L ÷ 8 W-ths of a tick. Three points are the
model's choice (log 17). Horizontal sync is driven high in its first sixteenth, where R170 gives a level for vertical
sync and data enable only. The data lines are 0 in the first eighth of an active line, for which the table gives the
output line alone. And the pixels fill the whole active window. -/
def panelAt (c : Settings) (out : OutputLine) (f u : Nat) : PanelPins :=
  let start := c.blankTicks * c.w
  let active := decide (c.vb ≤ f ∧ f < c.vb + c.h ∧ start ≤ u ∧ u < c.lineTicks * c.w)
  { pixelClock := true, hsync := decide (u < c.syncTicks * c.w), vsync := decide (f < 2), dataEnable := active,
    data := if active then out.pixel c.background ((u - start) / c.pixelTime) else 0 }

/-- The panel port, `part` W-ths of a tick after station time: idle, every output low, while the frame timer does not
run (R170). -/
def State.panel (part : Nat) (s : State) : PanelPins :=
  match s.loader.settled, s.timing.timer with
  | some c, some t =>
    panelAt c s.scan.output t.line ((ticksFrom t.last s.now - t.line * c.lineTicks) * c.w + part)
  | _, _ => { pixelClock := false, hsync := false, vsync := false, dataEnable := false, data := 0 }

end Sys2Proof.Machine
end

