-- ==== Sys2Proof/Machine/Presentation.lean ====
section
/-! DEFINITION. The Presentation Controller (chapter 2): participants, reference, candidates, decision, the
presentation step and the take-up. -/

namespace Sys2Proof.Machine

/-! ### Composition (R22 to R25) -/

/-- A roster entry that takes part in a decision (R22): MEMBER with lock state LOCKED or HOLDOVER. -/
def Entry.participates (e : Entry) : Bool :=
  e.member && (e.said.lock == .locked || e.said.lock == .holdover)

/-- The participating entries; the own entry is not among the stored entries (R44). -/
def State.participants (s : State) : List Entry := s.roster.entries.filter Entry.participates

/-- The shown frames of the participants, the origin's own first; absent ones are left out (R23). -/
def State.shownFrames (s : State) : List FrameNo :=
  s.presentation.shown.toList ++ s.participants.filterMap (fun e => e.said.shown)

/-- The value that is later than or equal to every other one (R23). -/
def latestOf (fs : List FrameNo) : Option FrameNo :=
  fs.find? fun f => fs.all fun g => f == g || laterThan f g

/-- The reference (R23): the latest of the shown frames; where they spread too far, the origin's own. -/
def State.reference (s : State) : Option FrameNo :=
  match latestOf s.shownFrames with
  | some f => some f
  | none => s.presentation.shown

/-- The candidates, in the order of the complete list (R24). -/
def State.candidates (s : State) : List FrameNo :=
  s.slots.complete.filter fun f =>
    s.participants.all (fun e => e.said.list.contains f) &&
    match s.reference with
    | some r => laterThan f r
    | none => true

/-- The decision by the advance policy (R25); absent for NONE. -/
def State.decisionOf (c : Settings) (s : State) : Option FrameNo :=
  match c.policy with
  | .next => s.candidates.head?
  | .newest => s.candidates.getLast?

/-- The BEAT of a composition (R27). -/
def State.composed (c : Settings) (s : State) : Beat :=
  { epoch := s.timing.epoch, decision := s.decisionOf c, period := BitVec.ofNat 24 c.period,
    participants := byteOf (1 + s.participants.length) }

/-- The origin's own pending decision at a composition (R28). -/
def Presentation.composed (epoch : Epoch) (d : Option FrameNo) (p : Presentation) : Presentation :=
  match d with
  | some f => { p with decision := some { target := epoch + 1, frame := f }, decisionsMade := bump p.decisionsMade }
  | none => { p with decision := none }

/-! ### Take-up (R30) -/

/-- Take-up of the decision of an accepted BEAT (R30): `epoch` is the BEAT's, `localEpoch` the station's as the
Timing Unit has left it. -/
def Presentation.takeUp (role : Role) (localEpoch epoch : Epoch) (d : Option FrameNo) (p : Presentation) :
    Presentation :=
  if role = .standby then p
  else match d with
    | none => { p with decision := none }
    | some f =>
      if laterThan (epoch + 1) localEpoch then { p with decision := some { target := epoch + 1, frame := f } }
      else { p with lateDecision := bump p.lateDecision }

/-! ### The presentation step (R33 to R37) -/

/-- A frame start at which the shown frame does not change (R37). -/
def Presentation.repeats (p : Presentation) : Presentation := { p with repeated := bump p.repeated }

/-- A presentation of P that the Slot Manager has answered with slot `i` (R35, R164): P is the shown frame, the pending
decision and its pin are gone, and the Scan-Out Unit takes the INDEX. -/
def State.presents (f : FrameNo) (i : Nat) (m : SlotManager) (s : State) : State :=
  let s1 := s.setSlots m
  let s2 := s1.setPresentation
    { s1.presentation with shown := some f, decision := none, presented := bump s1.presentation.presented }
  (s2.setScan (s2.scan.present i)).grant

/-- A pending decision for frame P applied at its TARGET frame start (R34, R36). At a STANDBY station no request is
sent (R14). -/
def State.applyDecision (f : FrameNo) (s : State) : State :=
  let p := { s.presentation with decision := none }
  if s.role.role = .standby then s.setPresentation p.repeats
  else if s.presentation.shown.any (fun g => !laterThan f g) then
    s.setPresentation { p.repeats with staleDecision := bump p.staleDecision }
  else match s.slots.present f with
    | some (i, m) => s.presents f i m
    | none => (s.setPresentation { p.repeats with missed := bump p.missed }).raise .miss

/-- The presentation step at a local frame start (R33): the pending decision's TARGET against the local epoch. -/
def State.presentationStep (s : State) : State :=
  match s.presentation.decision with
  | none => s.setPresentation s.presentation.repeats
  | some d =>
    if d.target = s.timing.epoch then s.applyDecision d.frame
    else if laterThan d.target s.timing.epoch then s.setPresentation s.presentation.repeats
    else
      s.setPresentation
        { s.presentation.repeats with decision := none, lateDecision := bump s.presentation.lateDecision }

end Sys2Proof.Machine
end

