-- ==== Sys2Proof/Machine/Roster.lean ====
section
/-! DEFINITION. The Roster Unit's table (chapter 3): the own entry, the entries of other stations, aging, the fault
holds. -/

namespace Sys2Proof.Machine

/-! ### The own entry (R44) -/

/-- The payload fields of the own entry, read from the live state of the blocks that own them (R44). -/
def State.ownStanding (c : Settings) (s : State) : Standing :=
  { capable := c.capable, role := s.role.role, lock := s.timing.lock, ring := s.ringOut.ring,
    conflict := decide (0 < s.roster.conflictHold), mismatch := decide (0 < s.roster.mismatchHold),
    shown := s.presentation.shown, epoch := s.timing.epoch, list := s.slots.complete }

/-- The own entry as a roster entry (R44). -/
def State.ownEntry (c : Settings) (s : State) : Entry :=
  { address := c.address, member := true, said := s.ownStanding c, silence := 0, lastSequence := s.roster.ownSequence }

/-! ### The entries of the other stations (R42, R50, R51) -/

def findEntry (a : Address) (es : List Entry) : Option Entry := es.find? (fun e => e.address == a)

def removeEntry (a : Address) (es : List Entry) : List Entry := es.filter (fun e => e.address != a)

/-- An entry is put into the table, in ascending address order, in place of any entry at its address. -/
def putEntry (x : Entry) : List Entry → List Entry
  | [] => [x]
  | e :: es =>
    if x.address.toNat < e.address.toNat then x :: e :: es
    else if x.address = e.address then x :: es
    else e :: putEntry x es

/-- Every roster entry in ascending address order, the own entry among them while it is present. -/
def State.allEntries (c : Settings) (s : State) : List Entry :=
  if s.roster.ownPresent then putEntry (s.ownEntry c) s.roster.entries else s.roster.entries

/-! ### Aging (R53) -/

/-- The entries that the departure of the own STANDING removes: their SILENCE was 3. -/
def agedOut (es : List Entry) : Nat := es.countP (fun e => decide (3 ≤ e.silence))

/-- The aging of one departure of the own STANDING (R53). -/
def RosterUnit.age (r : RosterUnit) : RosterUnit :=
  { r with
    entries := (r.entries.filter (fun e => decide (e.silence < 3))).map (fun e => { e with silence := e.silence + 1 }),
    entriesAged := bumpBy (agedOut r.entries) r.entriesAged }

/-- The departure of the own STANDING at the Roster Unit (R47, R53): LAST_SEQUENCE, aging, ROSTER_CHANGED. -/
def State.ownStandingDeparts (sequence : Byte) (s : State) : State :=
  let s1 := s.setRoster { s.roster.age with ownSequence := sequence }
  if 0 < agedOut s.roster.entries then s1.raise .rosterChanged else s1

/-! ### The fault holds (R45) -/

/-- The countdown of the fault holds at a local frame start (R45). -/
def RosterUnit.countHolds (r : RosterUnit) : RosterUnit :=
  { r with conflictHold := r.conflictHold - 1, mismatchHold := r.mismatchHold - 1 }

end Sys2Proof.Machine
end

