-- ==== Sys2Proof/Machine/RingOut.lean ====
section
/-! DEFINITION. The Ring Transmitter (chapter 7): the choice of RING OUT, departures, the local places, the
outstanding list and the ring state. -/

namespace Sys2Proof.Machine

/-! ### Ring state and outstanding list (R102, R124 to R126) -/

/-- The ring state takes a value; RING_CHANGED is raised at a change (R126). -/
def State.setRing (r : RingState) (s : State) : State :=
  let s1 := s.setRingOut { s.ringOut with ring := r }
  if s.ringOut.ring = r then s1 else s1.raise .ringChanged

/-- `n` entries expire and the list that remains is `rest` (R125). -/
def State.expireEntries (n : Nat) (rest : List Outstanding) (s : State) : State :=
  if n = 0 then s
  else
    (s.setRingOut { s.ringOut with outstanding := rest, lostOwn := bumpBy n s.ringOut.lostOwn }).setRing .broken

/-- An entry's DEPARTED lies 2 or more frame starts back (R125). -/
def Outstanding.old (count : BitVec 16) (o : Outstanding) : Bool := decide (2 ≤ (count - o.departed).toNat)

/-- Expiry at a local frame start (R125). -/
def State.expireOld (s : State) : State :=
  s.expireEntries (s.ringOut.outstanding.countP (Outstanding.old s.timing.frameCount))
    (s.ringOut.outstanding.filter (fun o => !o.old s.timing.frameCount))

/-- A departing own packet joins the outstanding list; with 8 entries held the oldest is expired first (R124). -/
def State.joinOutstanding (o : Outstanding) (s : State) : State :=
  let s1 :=
    if Config.outstandingLimit ≤ s.ringOut.outstanding.length then s.expireEntries 1 (s.ringOut.outstanding.drop 1)
    else s
  s1.setRingOut { s1.ringOut with outstanding := s1.ringOut.outstanding ++ [o] }

/-- The round-trip test of a stripped packet's Sequence (R102). -/
def State.ownReturned (sequence : Byte) (s : State) : State :=
  match s.ringOut.outstanding.findIdx? (fun o => o.sequence == sequence) with
  | some i =>
    (s.setRingOut { s.ringOut with outstanding := s.ringOut.outstanding.drop (i + 1) }).setRing .intact
  | none =>
    let s1 := s.setRingOut { s.ringOut with addressConflict := bump s.ringOut.addressConflict }
    (s1.setRoster { s1.roster with conflictHold := Config.faultHold }).raise .addressConflict

/-! ### Delay (R120, R123) -/

/-- A Delay brought to a number of ticks, capped at the saturated value. -/
def cappedDelay (n : Nat) : BitVec 16 := BitVec.ofNat 16 (min Config.saturatedDelay n)

/-- DELAY_CAPPED counts where this station brought a Delay to the saturated value. -/
def RingTransmitter.countCapped (n : Nat) (t : RingTransmitter) : RingTransmitter :=
  if Config.saturatedDelay ≤ n then { t with delayCapped := bump t.delayCapped } else t

/-! ### Departure of a forwarded packet (R119, R120) -/

/-- The Delay of a forwarded BEAT before the cap: as held, plus its residence and the segment delay (R120). -/
def RingPacket.delaySum (p : RingPacket) (now : Tick) (segment : Nat) : Nat :=
  p.header.delay.toNat + ticksFrom p.arrival now + segment

/-- The header of a forwarded packet at departure (R119). -/
def RingPacket.departing (p : RingPacket) (now : Tick) (segment : Nat) : RingHeader :=
  let h := { p.header with hops := p.header.hops - 1 }
  if p.header.kind = ringBeat then { h with delay := cappedDelay (p.delaySum now segment) } else h

/-- A forwarded packet departs (R119); it leaves the queue's order, its room stays counted (R113). -/
def State.departForwarded (p : RingPacket) (rest : List RingPacket) (s : State) : State :=
  let t :=
    if p.header.kind = ringBeat ∧ p.header.delay.toNat ≠ Config.saturatedDelay then
      s.ringOut.countCapped (p.delaySum s.now s.segmentDelay)
    else s.ringOut
  s.setRingOut
    { t with
      queue := rest,
      sending := some
        { source := .forwarded p.header.size, bytes := ringBytes (p.departing s.now s.segmentDelay) p.body } }

/-! ### Departure of an own packet (R121 to R124) -/

/-- The header of an own packet (R121). -/
def ownHeader (c : Settings) (kind : OwnKind) (sequence : Byte) (length : Nat) (delay : BitVec 16) : RingHeader :=
  { kind := kind.code, group := c.group, origin := c.address, sequence := sequence,
    hops := BitVec.ofNat 6 Config.hopsAtSender, taint := false, zeroHops := 0, length := BitVec.ofNat 6 length,
    zeroLength := 0, delay := delay }

/-- An own packet departs (R121, R122, R124): it takes the sequence number, LOCAL_SENT rises, and its entry joins the
outstanding list. The payload is the one given, settled before the list makes room (log 15). -/
def State.departOwn (c : Settings) (kind : OwnKind) (payload : List Byte) (delay : BitVec 16) (s : State) : State :=
  let t := s.ringOut
  let sent : Sending :=
    { source := .own kind,
      bytes := ringBytes (ownHeader c kind t.sequence payload.length delay) (protectPayload payload) }
  let s1 := s.setRingOut
    { t with sending := some sent, sequence := t.sequence + 1, localSent := bump t.localSent }
  s1.joinOutstanding { sequence := t.sequence, kind := kind, departed := s.timing.frameCount }

/-- Ticks from the last frame start to the present (R123). -/
def State.sinceFrameStart (s : State) : Nat :=
  match s.timing.timer with
  | some t => ticksFrom t.last s.now
  | none => 0

/-- The LEAVE departs: its place is emptied (R116, R121). -/
def State.departLeave (c : Settings) (s : State) : State :=
  (s.setRingOut { s.ringOut with leave := false }).departOwn c .leave leavePayload 0

/-- The BEAT departs: its Delay is the time since its frame start (R121, R123). -/
def State.departBeat (c : Settings) (b : Beat) (s : State) : State :=
  (s.setRingOut { s.ringOut.countCapped s.sinceFrameStart with beat := none }).departOwn c .beat b.payload
    (cappedDelay s.sinceFrameStart)

/-- The STANDING departs: its payload is the own entry as it stands at this moment (R47, R121). -/
def State.departStanding (c : Settings) (s : State) : State :=
  let s1 := (s.setRingOut { s.ringOut with standing := false }).departOwn c .standing (s.ownStanding c).payload 0
  s1.ownStandingDeparts s.ringOut.sequence

/-! ### The choice of RING OUT (R118) -/

/-- RING OUT, if IDLE, chooses what leaves (R118): the head of the forward queue; otherwise the LEAVE place, the BEAT
place, the STANDING place, in that order; otherwise it stays IDLE. -/
def State.chooseOut (s : State) : State :=
  match s.ringOut.sending with
  | some _ => s
  | none =>
    match s.ringOut.queue with
    | p :: rest => s.departForwarded p rest
    | [] =>
      match s.loader.settled with
      | none => s
      | some c =>
        if s.ringOut.leave then s.departLeave c
        else match s.ringOut.beat with
          | some b => s.departBeat c b
          | none => if s.ringOut.standing then s.departStanding c else s

/-- The transmission on RING OUT completes (R117): the room of a forwarded packet is freed and the next choice is
made. While RING OUT is IDLE there is no transmission to complete (log 6). -/
def State.sendDone (s : State) : State :=
  match s.ringOut.sending with
  | none => s
  | some x =>
    let freed :=
      match x.source with
      | .forwarded size => s.ringOut.occupancy - size
      | .own _ => s.ringOut.occupancy
    (s.setRingOut { s.ringOut with sending := none, occupancy := freed }).chooseOut

/-! ### The local places (R115, R116) -/

/-- The composed BEAT is placed in the BEAT place, replacing an unsent one (R115). -/
def State.offerBeat (b : Beat) (s : State) : State :=
  let replaced := if s.ringOut.beat.isSome then bump s.ringOut.beatReplaced else s.ringOut.beatReplaced
  (s.setRingOut { s.ringOut with beat := some b, beatReplaced := replaced }).chooseOut

/-- A STANDING is offered into the STANDING place, replacing an unsent one (R115). -/
def State.offerStanding (s : State) : State :=
  let replaced := if s.ringOut.standing then bump s.ringOut.standingReplaced else s.ringOut.standingReplaced
  (s.setRingOut { s.ringOut with standing := true, standingReplaced := replaced }).chooseOut

/-- A BEAT still waiting unsent is taken back from its place (R116). -/
def State.takeBackBeat (s : State) : State :=
  match s.ringOut.beat with
  | some _ => s.setRingOut { s.ringOut with beat := none, takenBack := bump s.ringOut.takenBack }
  | none => s

/-- A STANDING still waiting unsent is taken back from its place (R116). -/
def State.takeBackStanding (s : State) : State :=
  if s.ringOut.standing then
    s.setRingOut { s.ringOut with standing := false, takenBack := bump s.ringOut.takenBack }
  else s

/-- The LEAVE with reason WITHDRAWN fills the LEAVE place; one waiting there leaves it as it was (R116). -/
def State.offerLeave (s : State) : State :=
  (s.setRingOut { s.ringOut with leave := true }).chooseOut

/-! ### What RING OUT carries (R117, R190) -/

/-- The line symbols of the packet being sent: its start marker, its bytes and one fill symbol; fill alone while RING
OUT is IDLE. -/
def State.ringOutSymbols (s : State) : List LineSymbol :=
  match s.ringOut.sending with
  | some x => [.startMarker] ++ x.bytes.map .data ++ [.fill]
  | none => [.fill]

/-- The bits that RING OUT carries, each symbol in its serial form (R190). -/
def State.ringOutBits (s : State) : List Bool := s.ringOutSymbols.flatMap LineSymbol.serial

end Sys2Proof.Machine
end

