-- ==== Sys2Proof/Machine/Timing.lean ====
section
/-! DEFINITION. The Timing Unit (chapter 5): the frame timer, the estimate of a BEAT, corrections and lock states. -/

namespace Sys2Proof.Machine

/-! ### Lock state -/

/-- The lock state takes a value; LOCK_CHANGED is raised at a change (R92). -/
def State.setLock (l : Lock) (s : State) : State :=
  let s1 := s.setTiming { s.timing with lock := l }
  if s.timing.lock = l then s1 else s1.raise .lockChanged

/-! ### The frame start at the Timing Unit (R77, R88, R89) -/

/-- Steps 1 to 3 and the count of step 4 of R77, at station time `t` with frame period `period`. -/
def TimingUnit.startFrame (period : Nat) (t : Tick) (u : TimingUnit) : TimingUnit :=
  { u with
    timer := some { last := t, next := t + BitVec.ofNat 32 period, line := 0 }, epoch := u.epoch + 1,
    frameCount := u.frameCount + 1, timedMissed := min Config.missedCeiling (u.timedMissed + 1) }

/-- The lock state is examined at a frame start (R88, R89). A frame start at the very tick of the departure from
ORIGIN that entered HOLDOVER is not counted (R91; log 13). -/
def State.examineLock (t : Tick) (s : State) : State :=
  match s.timing.lock with
  | .acquiring | .locked =>
    if Config.missedLimit ≤ s.timing.timedMissed then
      (s.setTiming
        { s.timing with slip := 0, holdover := 0, holdoverEntries := bump s.timing.holdoverEntries }).setLock .holdover
    else s
  | .holdover =>
    if s.timing.departedAt = some t then s
    else if Config.holdoverLimit ≤ s.timing.holdover + 1 then (s.setTiming { s.timing with holdover := 0 }).setLock .free
    else s.setTiming { s.timing with holdover := s.timing.holdover + 1 }
  | .free => s
  | .reference => s

/-- The frame start at the Timing Unit (R77), at station time `t`. -/
def State.timingFrameStart (c : Settings) (t : Tick) (s : State) : State :=
  let s1 := (s.setNow t).setTiming (s.timing.startFrame c.period t)
  let s2 := s1.examineLock t
  s2.setTiming { s2.timing with departedAt := none }

/-! ### Claim of and departure from ORIGIN (R90) -/

/-- The claim: lock state REFERENCE, slip and holdover counts 0, timer and epoch untouched (R62, R90). -/
def State.timingClaim (s : State) : State :=
  (s.setTiming { s.timing with slip := 0, holdover := 0 }).setLock .reference

/-- The departure from ORIGIN: HOLDOVER with holdover count 0, HOLDOVER_ENTRIES rises (R90). -/
def State.timingDepart (s : State) : State :=
  (s.setTiming
    { s.timing with
      holdover := 0, holdoverEntries := bump s.timing.holdoverEntries, departedAt := some s.now }).setLock .holdover

/-! ### From a BEAT to a phase error (R80, R81) -/

/-- t0 = arrival time − Delay − configured segment delay (R80). -/
def beatOrigin (c : Settings) (arrival : Tick) (delay : BitVec 16) : Tick :=
  arrival - BitVec.ofNat 32 delay.toNat - BitVec.ofNat 32 c.segmentDelay

/-- k of R81, from d = N − t0: t0 + kT − N lies in −T/2 (included) to T/2 (excluded). -/
def matchK (period : Nat) (d : Int) : Nat := if 2 * d ≤ period then 0 else 1

/-- The phase error e = t0 + kT − N (R81). -/
def phaseError (period : Nat) (d : Int) : Int := (matchK period d : Int) * period - d

/-- The correction of a trim: e limited to −slew limit to +slew limit (R83). -/
def trimBy (slew : Nat) (e : Int) : Int := max (-(slew : Int)) (min (slew : Int) e)

/-! ### Corrections (R82 to R87) -/

/-- The epoch takes a value by a timed BEAT; EPOCH_STEP rises at a change (R82, R85). -/
def TimingUnit.correctEpoch (epoch : Epoch) (u : TimingUnit) : TimingUnit :=
  { u with epoch := epoch, epochStep := if epoch = u.epoch then u.epochStep else bump u.epochStep }

/-- The epoch correction without a jump: BEAT epoch + k − 1 (R82). -/
def epochFor (beatEpoch : Epoch) (k : Nat) : Epoch := beatEpoch + BitVec.ofNat 16 k - 1

/-- A jump (R85): the next frame start becomes t0 + T, the epoch the BEAT's, the lock state ACQUIRING. -/
def State.jump (c : Settings) (t0 : Tick) (beatEpoch : Epoch) (d : Int) (timer : FrameTimer) (s : State) : State :=
  let u := s.timing.correctEpoch beatEpoch
  (s.setTiming
    { u with
      timer := some { timer with next := t0 + BitVec.ofNat 32 c.period }, slip := 0, holdover := 0, timedMissed := 0,
      jumps := bump u.jumps,
      estimate := some
        { beatEpoch := beatEpoch, phaseError := phaseError c.period d, action := .jump,
          correction := (c.period : Int) - d } }).setLock .acquiring

/-- A timed BEAT within the lock window in ACQUIRING or HOLDOVER (R86, R89): LOCKED, no timer correction. -/
def State.confirmLock (c : Settings) (beatEpoch : Epoch) (d : Int) (s : State) : State :=
  let u := s.timing.correctEpoch (epochFor beatEpoch (matchK c.period d))
  (s.setTiming
    { u with
      slip := 0, holdover := 0, timedMissed := 0,
      estimate := some
        { beatEpoch := beatEpoch, phaseError := phaseError c.period d, action := .lock, correction := 0 } }).setLock
    .locked

/-- A timed BEAT within the lock window in LOCKED: epoch correction and trim (R83, R87). -/
def State.trim (c : Settings) (beatEpoch : Epoch) (d : Int) (timer : FrameTimer) (s : State) : State :=
  let u := s.timing.correctEpoch (epochFor beatEpoch (matchK c.period d))
  let x := trimBy c.slewLimit (phaseError c.period d)
  s.setTiming
    { u with
      timer := some { timer with next := timer.next + BitVec.ofInt 32 x }, slip := 0, timedMissed := 0,
      estimate := some
        { beatEpoch := beatEpoch, phaseError := phaseError c.period d, action := .trim, correction := x } }

/-- The first phase error outside the window in LOCKED: a slip (R87). -/
def State.slipOnce (c : Settings) (beatEpoch : Epoch) (d : Int) (s : State) : State :=
  let u := s.timing.correctEpoch (epochFor beatEpoch (matchK c.period d))
  s.setTiming
    { u with
      slip := 1, slips := bump u.slips, timedMissed := 0,
      estimate := some
        { beatEpoch := beatEpoch, phaseError := phaseError c.period d, action := .slip, correction := 0 } }

/-- The phase error lies within the lock window, by magnitude (R81). -/
def inWindow (c : Settings) (d : Int) : Bool := decide ((phaseError c.period d).natAbs ≤ c.lockWindow)

/-- A trim moves the next frame start to the present or before it, and so produces the frame start at once (R84): the
correction is negative and N + c is not after the present (log 18). -/
def trimFires (c : Settings) (now next : Tick) (d : Int) : Bool :=
  decide (trimBy c.slewLimit (phaseError c.period d) < 0 ∧
    signedTicks now next + trimBy c.slewLimit (phaseError c.period d) ≤ 0)

/-- A timed BEAT by the rule of the lock state (R82 to R89), and whether a trim produces the frame start at once. In
REFERENCE no BEAT reaches the Timing Unit (R90), and nothing changes. -/
def State.timedBeat (c : Settings) (beatEpoch : Epoch) (arrival : Tick) (delay : BitVec 16) (timer : FrameTimer)
    (s : State) : State × Bool :=
  let t0 := beatOrigin c arrival delay
  let d := signedTicks t0 timer.next
  match s.timing.lock with
  | .free => (s.jump c t0 beatEpoch d timer, false)
  | .acquiring | .holdover =>
    if inWindow c d then (s.confirmLock c beatEpoch d, false) else (s.jump c t0 beatEpoch d timer, false)
  | .locked =>
    if inWindow c d then (s.trim c beatEpoch d timer, trimFires c s.now timer.next d)
    else if s.timing.slip = 0 then (s.slipOnce c beatEpoch d, false)
    else (s.jump c t0 beatEpoch d timer, false)
  | .reference => (s, false)

/-- An accepted BEAT at the Timing Unit (R79): with a saturated Delay it is counted and leaves the timing as it is. -/
def State.timingBeat (c : Settings) (beatEpoch : Epoch) (arrival : Tick) (delay : BitVec 16) (s : State) :
    State × Bool :=
  if delay.toNat = Config.saturatedDelay then
    (s.setTiming { s.timing with saturatedDelay := bump s.timing.saturatedDelay }, false)
  else match s.timing.timer with
    | some timer => s.timedBeat c beatEpoch arrival delay timer
    | none => (s, false)

end Sys2Proof.Machine
end

