-- ==== Sys2Proof/Machine/Role.lean ====
section
/-! DEFINITION. The Role Controller (chapter 4): counts, claim, acceptance, yields, LEAVE; and the Roster Unit's
taking in of STANDING and LEAVE, which reports to it. -/

namespace Sys2Proof.Machine

/-! ### Claim (R60 to R62) -/

/-- Eligibility (R61): origin-capable, and no capable MEMBER at a lower address in the roster. -/
def State.eligible (c : Settings) (s : State) : Bool :=
  c.capable && s.roster.entries.all fun e =>
    !(e.member && e.said.capable && decide (e.address.toNat < c.address.toNat))

/-- The claim of the origin role at the Role Controller and the Timing Unit (R62). -/
def State.claim (c : Settings) (s : State) : State :=
  ((s.setRole
    { s.role with role := .origin, current := some c.address, listening := 0, claims := bump s.role.claims }).timingClaim).raise
    .roleChanged

/-- The Role Controller's frame start (R59, R60). -/
def State.roleFrameStart (c : Settings) (s : State) : State :=
  let missed := min Config.missedCeiling (s.role.beatsMissed + 1)
  let s1 := s.setRole { s.role with beatsMissed := missed }
  let claims := s1.eligible c && decide (Config.missedLimit ≤ missed)
  match s.role.role with
  | .listening =>
    if Config.listeningLimit ≤ s.role.listening + 1 then
      if claims then s1.claim c
      else (s1.setRole { s1.role with role := .follower, listening := 0 }).raise .roleChanged
    else s1.setRole { s1.role with listening := s.role.listening + 1 }
  | .follower => if claims then s1.claim c else s1
  | .origin => s1
  | .standby => s1

/-! ### Departure from ORIGIN (R67) -/

/-- The effects of every departure from ORIGIN, the role becoming `r` (R67). -/
def State.departOrigin (r : Role) (s : State) : State :=
  ((s.setRole { s.role with role := r, yields := bump s.role.yields }).timingDepart.takeBackBeat).raise .roleChanged

/-- The yield to a capable MEMBER (R69): the current origin becomes absent. -/
def State.yieldByMember (s : State) : State :=
  let s1 := s.departOrigin .follower
  s1.setRole { s1.role with current := none }

/-- The Roster Unit's report of a capable MEMBER (R52, R69). -/
def State.capableMember (c : Settings) (a : Address) (s : State) : State :=
  if s.role.role = .origin ∧ a.toNat < c.address.toNat then s.yieldByMember else s

/-! ### BEATs (R63 to R68) -/

/-- Acceptance of a BEAT (R65): current origin, beats-missed, Last BEAT, then the Timing Unit, then the take-up. The
second part says whether a trim produces the frame start at once (R84). -/
def State.acceptBeat (c : Settings) (h : RingHeader) (b : Beat) (arrival : Tick) (s : State) : State × Bool :=
  let s1 := s.setRole
    { s.role with
      current := some h.origin, beatsMissed := 0, beatsAccepted := bump s.role.beatsAccepted,
      lastBeat := some
        { origin := h.origin, epoch := b.epoch, decision := b.decision, participants := b.participants,
          delay := h.delay } }
  let timed := s1.timingBeat c b.epoch arrival h.delay
  let s2 := timed.1
  (s2.setPresentation (s2.presentation.takeUp s2.role.role s2.timing.epoch b.epoch b.decision), timed.2)

/-- The acceptance test at a station that is not ORIGIN (R64). -/
def RoleUnit.accepts (r : RoleUnit) (a : Address) : Bool :=
  match r.current with
  | none => true
  | some o => o == a || decide (a.toNat < o.toNat) || decide (2 ≤ r.beatsMissed)

/-- A BEAT whose period differs is refused in every role (R63). -/
def State.refusePeriod (s : State) : State :=
  let s1 := s.setRole { s.role with periodMismatch := bump s.role.periodMismatch }
  (s1.setRoster { s1.roster with mismatchHold := Config.faultHold }).raise .periodMismatch

/-- A BEAT of the own group at the Role Controller (R63 to R68). -/
def State.takeBeat (c : Settings) (h : RingHeader) (b : Beat) (arrival : Tick) (s : State) : State × Bool :=
  if b.period.toNat ≠ c.period then (s.refusePeriod, false)
  else if s.role.role = .origin then
    if h.origin.toNat < c.address.toNat then (s.departOrigin .follower).acceptBeat c h b arrival
    else (s.setRole { s.role with dueling := bump s.role.dueling }, false)
  else if s.role.accepts h.origin then s.acceptBeat c h b arrival
  else (s.setRole { s.role with ignoredBeats := bump s.role.ignoredBeats }, false)

/-! ### LEAVE at the Role Controller (R70) -/

/-- The LEAVE shortcut (R70). -/
def State.originLeaves (a : Address) (s : State) : State :=
  if s.role.current = some a then s.setRole { s.role with current := none, beatsMissed := Config.missedLimit } else s

/-! ### STANDING and LEAVE at the Roster Unit (R49 to R54) -/

/-- A STANDING or LEAVE refused by the content check (R49). -/
def State.refuseContent (s : State) : State :=
  s.setRoster { s.roster with rosterRefused := bump s.roster.rosterRefused }

/-- An entry is created or refreshed (R50, R51): STANDINGS_TAKEN rises. -/
def State.storeEntry (e : Entry) (s : State) : State :=
  s.setRoster
    { s.roster with entries := putEntry e s.roster.entries, standingsTaken := bump s.roster.standingsTaken }

/-- A STANDING that passes the check, taken by R50 or R51. One that names the own address, which can come only by R111,
leaves the roster as it is: R42 gives an address one entry, and R44 keeps the own entry from the ring (log 27: the
model's choice). -/
def State.takeStanding (c : Settings) (a : Address) (sequence : Byte) (x : Standing) (s : State) : State :=
  let e : Entry := { address := a, member := true, said := x, silence := 0, lastSequence := sequence }
  if a = c.address then s
  else match findEntry a s.roster.entries with
    | none => s.storeEntry { e with member := false }
    | some old =>
      if old.lastSequence = sequence then
        s.setRoster { s.roster with duplicateStanding := bump s.roster.duplicateStanding }
      else if old.member then
        let s1 := s.storeEntry e
        if x.capable && !old.said.capable then s1.capableMember c a else s1
      else
        let s1 := (s.storeEntry e).raise .rosterChanged
        if x.capable then s1.capableMember c a else s1

/-- A STANDING handed to the Roster Unit (R49 to R51); `payload` has Length bytes. -/
def State.standingArrives (c : Settings) (h : RingHeader) (payload : List Byte) (s : State) : State :=
  match parseStanding payload with
  | some x => if h.origin = 31 then s.refuseContent else s.takeStanding c h.origin h.sequence x
  | none => s.refuseContent

/-- A LEAVE that passes the check (R54). One that names the own address, which can come only by R111, is counted and
recorded, and the own entry stays: R44 gives WITHDRAW alone as what removes it (log 27: the model's choice). -/
def State.takeLeave (a : Address) (reason : Byte) (s : State) : State :=
  let s1 := s.setRoster
    { s.roster with
      entries := removeEntry a s.roster.entries, leavesTaken := bump s.roster.leavesTaken,
      lastLeave := some { address := a, reason := reason } }
  let s2 := if (findEntry a s.roster.entries).isSome then s1.raise .rosterChanged else s1
  s2.originLeaves a

/-- A LEAVE handed to the Roster Unit (R49, R54); `payload` has Length bytes. -/
def State.leaveArrives (h : RingHeader) (payload : List Byte) (s : State) : State :=
  if h.origin = 31 ∨ payload.length ≠ 1 then s.refuseContent else s.takeLeave h.origin (byteAt payload 0)

end Sys2Proof.Machine
end

