-- ==== Sys2Proof/Machine/FrameStart.lean ====
section
/-! DEFINITION. The frame start as one event at every block (R77), the line start, and the commands that name a frame
start by what comes about at it. -/

namespace Sys2Proof.Machine

/-! ### The frame start (R77) -/

/-- The composition and its BEAT at an ORIGIN (R26 to R28): the pending decision is set at the composition, and the
BEAT is placed after the ticks that the composition takes (R123; log 14). -/
def State.composition (c : Settings) (ticks : Tick) (s : State) : State :=
  if s.role.role = .origin then
    let s1 := s.setPresentation (s.presentation.composed s.timing.epoch (s.decisionOf c))
    (s1.passTicks ticks).offerBeat (s.composed c)
  else s

/-- The STANDING offer of a frame start while the station is RUNNING (R46). -/
def State.standingOffer (s : State) : State :=
  match s.loader.station with
  | .running => s.offerStanding
  | .withdrawn => s
  | .configuring => s
  | .configFault => s

/-- One block's work at a frame start; `cut` says whether the frame start cut the frame that ended (R169). -/
def State.framePart (c : Settings) (cut : Bool) (ticks : Tick) (s : State) : FramePart → State
  | .role => s.roleFrameStart c
  | .settle => s.setScan (s.scan.settle cut)
  | .present => s.presentationStep
  | .firstLine => s.beginLine c 0
  | .compose => s.composition c ticks
  | .holds => s.setRoster s.roster.countHolds
  | .offer => s.standingOffer
  | .expire => s.expireOld

/-- A frame start cuts the frame that began at `last` when it comes before that frame's last active line has run its
full L ticks, that is, before T ticks (R169). -/
def cutsFrame (c : Settings) (last t : Tick) : Bool := decide (ticksFrom last t < c.period)

/-- A frame start at station time `t` (R77): the Timing Unit first, then the blocks in the order taken (log 7). -/
def State.frameStartAt (t : Tick) (order : FrameOrder) (s : State) : State :=
  match s.loader.settled, s.timing.timer with
  | some c, some timer =>
    order.taken.foldl (State.framePart c (cutsFrame c timer.last t) order.composeTicks) (s.timingFrameStart c t)
  | _, _ => s

/-- The frame start that occurs when station time reaches the next frame start (R77). Where the next frame start lies
behind station time, which no run reaches, it occurs at the present (log 19). -/
def State.nextFrameStart (order : FrameOrder) (s : State) : State :=
  match s.timing.timer with
  | some timer =>
    s.frameStartAt (if ticksFrom s.now timer.next < 2147483648 then timer.next else s.now) order
  | none => s

/-- The frame start that a trim has produced at once, stamped with the present station time (R84). -/
def State.immediateFrameStart (fires : Bool) (order : FrameOrder) (s : State) : State :=
  if fires then s.frameStartAt s.now order else s

/-- FRAME_START (R77). While the frame timer does not run no frame start is produced (R75). -/
def execFrameStart (e : Elapsed) (order : FrameOrder) (s : State) : Host.Outcome State Fault Refusal :=
  onEvent e (State.nextFrameStart order) s

/-! ### The commands that name a frame start by what comes about at it (log 5)

Each is the frame start at which the named thing comes about. Where it would not come about at the coming frame start,
the event does not arise, and nothing but what has passed is accounted for. -/

/-- The coming frame start, if `comes` holds. -/
def State.frameStartIf (comes : Bool) (order : FrameOrder) (s : State) : State :=
  if comes then s.nextFrameStart order else s

/-- The listening count reaches 4 at the coming frame start (R60). -/
def State.listeningEnds (s : State) : Bool :=
  s.role.role == .listening && decide (Config.listeningLimit ≤ s.role.listening + 1)

/-- A fault hold counts down to 0 at the coming frame start (R45). -/
def State.holdEnds (s : State) : Bool :=
  s.roster.conflictHold == 1 || s.roster.mismatchHold == 1

/-- An outstanding entry is 2 or more frame starts old at the coming frame start (R125). -/
def State.outstandingEnds (s : State) : Bool :=
  s.ringOut.outstanding.any (Outstanding.old (s.timing.frameCount + 1))

/-- Timed-missed reaches 3 or more at the coming frame start in ACQUIRING or LOCKED (R88). -/
def State.lockEnds (s : State) : Bool :=
  (s.timing.lock == .acquiring || s.timing.lock == .locked) &&
    decide (Config.missedLimit ≤ s.timing.timedMissed + 1)

/-- The holdover count reaches 16 at the coming frame start (R89). -/
def State.holdoverEnds (s : State) : Bool :=
  s.timing.lock == .holdover && decide (Config.holdoverLimit ≤ s.timing.holdover + 1)

/-- LISTENING_COUNT_END (R60). -/
def execListeningCountEnd (e : Elapsed) (order : FrameOrder) (s : State) : Host.Outcome State Fault Refusal :=
  onEvent e (fun s => s.frameStartIf s.listeningEnds order) s

/-- FAULT_HOLD_EXPIRY (R45). -/
def execFaultHoldExpiry (e : Elapsed) (order : FrameOrder) (s : State) : Host.Outcome State Fault Refusal :=
  onEvent e (fun s => s.frameStartIf s.holdEnds order) s

/-- OUTSTANDING_EXPIRY (R125). -/
def execOutstandingExpiry (e : Elapsed) (order : FrameOrder) (s : State) : Host.Outcome State Fault Refusal :=
  onEvent e (fun s => s.frameStartIf s.outstandingEnds order) s

/-- HOLDOVER_ENTRY (R88). -/
def execHoldoverEntry (e : Elapsed) (order : FrameOrder) (s : State) : Host.Outcome State Fault Refusal :=
  onEvent e (fun s => s.frameStartIf s.lockEnds order) s

/-- HOLDOVER_EXPIRY (R89). -/
def execHoldoverExpiry (e : Elapsed) (order : FrameOrder) (s : State) : Host.Outcome State Fault Refusal :=
  onEvent e (fun s => s.frameStartIf s.holdoverEnds order) s

/-- The step at which the own STANDING departs and ages an entry out (R53): the completion of the transmission on RING
OUT that makes way for it, otherwise the coming frame start whose offer finds RING OUT free. Where neither ages an
entry out, the event does not arise (log 5). -/
def State.agingDeparture (order : FrameOrder) (s : State) : State :=
  if s.sendDone.roster.entries.length < s.roster.entries.length then s.sendDone
  else if (s.nextFrameStart order).roster.entries.length < s.roster.entries.length then s.nextFrameStart order
  else s

/-- ENTRY_AGED (R53). -/
def execEntryAged (e : Elapsed) (order : FrameOrder) (s : State) : Host.Outcome State Fault Refusal :=
  onEvent e (State.agingDeparture order) s

/-- RING_TRANSMISSION_COMPLETE (R117). -/
def execRingTransmissionComplete (e : Elapsed) (s : State) : Host.Outcome State Fault Refusal :=
  onEvent e State.sendDone s

/-! ### The line start (R76, R168) -/

/-- The next line of the frame timer starts (R76): line f begins at last frame start + f × L, unless that time falls at
or after the next frame start. Station time goes on to it, or stays where it is already past (log 12). -/
def State.nextLine (s : State) : State :=
  match s.loader.settled, s.timing.timer with
  | some c, some timer =>
    let due := (timer.line + 1) * c.lineTicks
    if due < ticksFrom timer.last timer.next then
      let s1 := if ticksFrom timer.last s.now < due then s.setNow (timer.last + BitVec.ofNat 32 due) else s
      (s1.setTiming { s1.timing with timer := some { timer with line := timer.line + 1 } }).beginLine c (timer.line + 1)
    else s
  | _, _ => s

/-- LINE_START (R168). -/
def execLineStart (e : Elapsed) (s : State) : Host.Outcome State Fault Refusal :=
  onEvent e State.nextLine s

/-! ### Transfers (R163) -/

/-- TRANSFER_COMPLETE (R163). While no transfer is in progress there is none to complete (log 6). A line that does not
lie inside the frame memory faults (R161; no settled configuration has one). -/
def execTransferComplete (e : Elapsed) (s : State) : Host.Outcome State Fault Refusal :=
  if s.held then .next s
  else
    match (s.elapse e).transfer, (s.elapse e).loader.settled with
    | some t, some c => if t.inside c then .next ((s.elapse e).transferDone c t) else .fault .frameMemoryAddress
    | _, _ => .next (s.elapse e)

end Sys2Proof.Machine
end

