-- ==== Sys2Proof/Machine/RingIn.lean ====
section
/-! DEFINITION. The Ring Receiver (chapter 6): signal, framing, the header checks, room, completion, consumption. -/

namespace Sys2Proof.Machine

/-- The packet in reception leaves the receiver, which takes a state (6.2). -/
def RingReceiver.leave (st : RingRxState) (r : RingReceiver) : RingReceiver :=
  { r with state := st, packet := none }

/-- Room reserved for the packet in reception (R104), 0 while none is. -/
def RingReceiver.reservation (r : RingReceiver) : Nat :=
  match r.packet with
  | some p =>
    match p.reserved, p.header with
    | true, some h => h.size
    | _, _ => 0
  | none => 0

/-- BYTES of the packet in reception (R97): 0 to 66. -/
def RingRxPacket.bytes (p : RingRxPacket) : Nat :=
  match p.header with
  | some _ => 8 + p.taken.length
  | none => p.taken.length

/-- The reservation of the packet in reception is released (R96, R98, R113). -/
def State.releaseRoom (s : State) : State :=
  s.setRingOut { s.ringOut with occupancy := s.ringOut.occupancy - s.ringIn.reservation }

/-! ### Signal and framing (R96 to R98) -/

/-- Loss of signal, in every receive state (R96). -/
def State.ringLoss (s : State) : State :=
  let s1 := s.releaseRoom
  s1.setRingIn { s1.ringIn.leave .down with signalLost := bump s1.ringIn.signalLost }

/-- Signal present moves DOWN to HUNT (R96). -/
def State.ringSignal (s : State) : State :=
  if s.ringIn.state = .down then s.setRingIn { s.ringIn with state := .hunt } else s

/-- The packet in reception, if one is, is truncated; the receiver takes HUNT (R98). -/
def State.ringTruncate (s : State) : State :=
  match s.ringIn.packet with
  | some _ =>
    let s1 := s.releaseRoom
    s1.setRingIn { s1.ringIn.leave .hunt with truncated := bump s1.ringIn.truncated }
  | none => s

/-- A new packet in reception, stamped with the present station time (R97). -/
def RingReceiver.begin (now : Tick) (r : RingReceiver) : RingReceiver :=
  { r with state := .header, packet := some { arrival := now, taken := [], header := none, reserved := false } }

/-- A start marker (R97, R98); in DOWN nothing is received. -/
def State.ringMarker (s : State) : State :=
  if s.ringIn.state = .down then s
  else
    let s1 := s.ringTruncate
    s1.setRingIn (s1.ringIn.begin s1.now)

/-- RING_LOSS_OF_SIGNAL (R96). -/
def execRingLossOfSignal (e : Elapsed) (s : State) : Host.Outcome State Fault Refusal :=
  onEvent e State.ringLoss s

/-- RING_SIGNAL_PRESENT (R96). -/
def execRingSignalPresent (e : Elapsed) (s : State) : Host.Outcome State Fault Refusal :=
  onEvent e State.ringSignal s

/-! ### Consumption (R108, R109) -/

/-- A completed good packet at the consumers (R108, R109); `payload` has Length bytes. The second part says whether a
BEAT's trim produces a frame start at once (R84). A packet of the own address whose header was taken while CONFIGURING
is handed over too (R111), though R44 says that none is; what its consumers make of it is log 27. -/
def State.consume (h : RingHeader) (payload : List Byte) (arrival : Tick) (s : State) : State × Bool :=
  match s.active with
  | none => (s, false)
  | some c =>
    if h.group ≠ c.group then (s, false)
    else
      let handed := s.setRingIn { s.ringIn with consumed := bump s.ringIn.consumed }
      if h.kind = ringStanding then (handed.standingArrives c h payload, false)
      else if h.kind = ringLeave then (handed.leaveArrives h payload, false)
      else if h.kind = ringBeat then
        if h.length ≠ 9 ∨ h.origin = 31 then
          (s.setRingIn { s.ringIn with beatRefused := bump s.ringIn.beatRefused }, false)
        else handed.takeBeat c h (parseBeat payload) arrival
      else (s, false)

/-! ### Completion (R105, R107) -/

/-- The counts of a completion, by TAINT as received and the CRC (R105). -/
def RingReceiver.countCompletion (taint good : Bool) (r : RingReceiver) : RingReceiver :=
  { r with
    taintedIn := if taint then bump r.taintedIn else r.taintedIn,
    crcFirst := if !taint && !good then bump r.crcFirst else r.crcFirst, forwarded := bump r.forwarded }

/-- The whole packet at the tail of the forward queue (R107), with TAINT set where R105 gives. -/
def completedPacket (h : RingHeader) (good : Bool) (body : List Byte) (arrival : Tick) : RingPacket :=
  { header := { h with taint := h.taint || !good }, body := body, arrival := arrival }

/-- Reception is complete (R107): the packet joins the forward queue, from which an IDLE RING OUT takes it, and it is
consumed where R108 gives; a frame start that its BEAT's trim produces at once follows (R84). -/
def State.ringComplete (h : RingHeader) (good : Bool) (body : List Byte) (arrival : Tick) (order : FrameOrder)
    (s : State) : State :=
  let s1 := s.setRingIn ((s.ringIn.leave .hunt).countCompletion h.taint good)
  let s2 := s1.setRingOut { s1.ringOut with queue := s1.ringOut.queue ++ [completedPacket h good body arrival] }
  let s3 := s2.chooseOut
  if !h.taint && good then
    let taken := s3.consume h (body.take h.length.toNat) arrival
    taken.1.immediateFrameStart taken.2 order
  else s3

/-- RING_PACKET_COMPLETE (R107): the bytes given end the payload and CRC in reception. Where they do not, the last
CRC byte has not been taken, and the event does not arise (log 6). -/
def State.ringLastByte (rest : List Byte) (order : FrameOrder) (s : State) : State :=
  match s.ringIn.packet with
  | some p =>
    match p.header with
    | some h =>
      if (p.taken ++ rest).length = h.length.toNat + 2 then
        s.ringComplete h (crcGood h.length.toNat (p.taken ++ rest)) (p.taken ++ rest) p.arrival order
      else s
    | none => s
  | none => s

def execRingPacketComplete (e : Elapsed) (rest : List Byte) (order : FrameOrder) (s : State) :
    Host.Outcome State Fault Refusal :=
  onEvent e (State.ringLastByte rest order) s

/-! ### The header (R99 to R104) -/

/-- Own address of a station that makes the strip test: RUNNING or WITHDRAWN (R101, R110). -/
def State.ownPacket (h : RingHeader) (s : State) : Bool :=
  match s.active with
  | some c => h.origin == c.address
  | none => false

/-- A header that has passed the check of R99, tested for length, strip, orphan and room in that order (R100 to
R104). -/
def State.ringHeaderGood (h : RingHeader) (arrival : Tick) (s : State) : State :=
  if Config.maxRingLength < h.length.toNat then
    s.setRingIn { s.ringIn.leave .hunt with lengthBad := bump s.ringIn.lengthBad }
  else if s.ownPacket h then
    (s.setRingIn { s.ringIn.leave .hunt with stripped := bump s.ringIn.stripped }).ownReturned h.sequence
  else if h.hops = 0 then s.setRingIn { s.ringIn.leave .hunt with orphan := bump s.ringIn.orphan }
  else if Config.forwardCapacity < s.ringOut.occupancy + h.size then
    s.setRingIn { s.ringIn.leave .hunt with forwardOverflow := bump s.ringIn.forwardOverflow }
  else
    let s1 := s.setRingOut { s.ringOut with occupancy := s.ringOut.occupancy + h.size }
    if h.length = 0 then
      s1.ringComplete h true [] arrival .plain
    else
      s1.setRingIn
        { s1.ringIn with
          state := .payload,
          packet := some { arrival := arrival, taken := [], header := some h, reserved := true } }

/-- The eighth header byte is taken (R99). -/
def State.ringHeaderCheck (bytes : List Byte) (arrival : Tick) (s : State) : State :=
  match checkHeader bytes with
  | .good h => s.ringHeaderGood (ringHeader h) arrival
  | .corrected h =>
    (s.setRingIn { s.ringIn with hdrCorrected := bump s.ringIn.hdrCorrected }).ringHeaderGood (ringHeader h) arrival
  | .bad => s.setRingIn { s.ringIn.leave .hunt with hdrBad := bump s.ringIn.hdrBad }

/-- RING_HEADER_TAKEN (R99): the bytes given end the header in reception. Where they do not, the eighth byte has not
been taken, and the event does not arise (log 6). -/
def State.ringEighthByte (rest : List Byte) (s : State) : State :=
  match s.ringIn.packet with
  | some p =>
    match p.header with
    | none => if (p.taken ++ rest).length = 8 then s.ringHeaderCheck (p.taken ++ rest) p.arrival else s
    | some _ => s
  | none => s

def execRingHeaderTaken (e : Elapsed) (rest : List Byte) (s : State) : Host.Outcome State Fault Refusal :=
  onEvent e (State.ringEighthByte rest) s

/-! ### Symbols (R190) -/

/-- A data byte taken on RING IN (R97 to R107, 6.2): it ends the header or the packet in reception, joins what is
collected, or is discarded. -/
def State.ringData (order : FrameOrder) (b : Byte) (s : State) : State :=
  match s.ringIn.packet with
  | none => s
  | some p =>
    match p.header with
    | none => if p.taken.length < 7 then s.setRingIn (s.ringIn.collect [b]) else s.ringEighthByte [b]
    | some h =>
      if p.taken.length < h.length.toNat + 1 then s.setRingIn (s.ringIn.collect [b]) else s.ringLastByte [b] order

/-- A symbol taken on RING IN. `order` is used only by a frame start produced at once (R84). -/
def State.ringSymbol (order : FrameOrder) (x : LineSymbol) (s : State) : State :=
  match x with
  | .startMarker => s.ringMarker
  | .fill => s.ringTruncate
  | .data b => s.ringData order b

/-- Ten bits received on RING IN are taken as the symbol that R190 gives. -/
def State.ringReceives (order : FrameOrder) (bits : List Bool) (s : State) : State :=
  s.ringSymbol order (receiveSerial bits)

/-- RING_START_MARKER (R97): the start marker as it is sent. -/
def execRingStartMarker (e : Elapsed) (s : State) : Host.Outcome State Fault Refusal :=
  onEvent e (State.ringReceives .plain LineSymbol.startMarker.serial) s

/-- RING_FILL (R98): fill as it is sent, and every code that is taken as fill (R190); in DOWN and HUNT it is
discarded. -/
def execRingFill (e : Elapsed) (s : State) : Host.Outcome State Fault Refusal :=
  onEvent e (State.ringReceives .plain LineSymbol.fill.serial) s

end Sys2Proof.Machine
end

