-- ==== Sys2Proof/Machine/Ingest.lean ====
section
/-! DEFINITION. The Frame Assembler (chapter 9): FRAME_BEGIN, LINE segments, FRAME_END, the write queue, abandonment
and link reset. -/

namespace Sys2Proof.Machine

/-! ### Shared parts -/

/-- The assembler's counters are set and INGEST_ERROR is raised (R160). -/
def State.ingestError (u : Assembler) (s : State) : State := (s.setIngest u).raise .ingestError

/-- The frame state is left: accounted set, open line, line buffer, current frame and slot are cleared (R145). -/
def Assembler.leaveFrame (st : AssemblerState) (frame : Option FrameNo) (u : Assembler) : Assembler :=
  { u with state := st, frame := frame, slot := none, accounted := [], openLine := none, buffer := [] }

/-- The current slot is abandoned, if there is one (R11). -/
def State.abandonCurrent (s : State) : State :=
  match s.ingest.slot with
  | some i => s.abandonSlot i
  | none => s

/-- DAMAGED is set on the current slot (R4). -/
def State.damageCurrent (s : State) : State :=
  match s.ingest.slot with
  | some i => s.setSlots (s.slots.damage i)
  | none => s

/-! ### FRAME_BEGIN (R146 to R148) -/

/-- A FRAME_BEGIN taken in IN_FRAME first ends the frame in progress (R146). -/
def State.endInProgress (s : State) : State :=
  if s.ingest.state = .inFrame then
    let s1 := s.abandonCurrent
    s1.ingestError { s1.ingest.leaveFrame .noFrame none with abandonedFrame := bump s1.ingest.abandonedFrame }
  else s

/-- FRAME_BEGIN N is stale (R147). -/
def State.staleFrame (n : FrameNo) (s : State) : Bool :=
  s.presentation.shown.any (fun f => !laterThan n f) || s.slots.heldNotEarlier n

/-- FRAME_BEGIN N at the Frame Assembler (R146 to R148). -/
def State.takeFrameBegin (n : FrameNo) (s : State) : State :=
  let s1 := s.endInProgress
  if s1.staleFrame n then
    s1.ingestError { s1.ingest.leaveFrame .discarding (some n) with staleFrame := bump s1.ingest.staleFrame }
  else match s1.slots.claim n s1.pin with
    | none => s1.ingestError { s1.ingest.leaveFrame .discarding (some n) with noSlotDrop := bump s1.ingest.noSlotDrop }
    | some (i, m) =>
      (s1.setSlots m).setIngest
        { s1.ingest.leaveFrame .inFrame (some n) with slot := some i, framesBegun := bump s1.ingest.framesBegun }

/-! ### LINE (R149 to R154) -/

/-- The open line is abandoned (R152). A line that was accounted for by an earlier copy stays in the accounted set, and
DAMAGED alone refuses the frame (log 28: the model's choice beside R153). -/
def State.abandonLine (s : State) : State :=
  (s.ingestError
    { s.ingest with openLine := none, buffer := [], lineAbandoned := bump s.ingest.lineAbandoned }).damageCurrent

/-- A RANGE error (R149, R150). -/
def State.rangeError (s : State) : State :=
  (s.ingestError { s.ingest with rangeError := bump s.ingest.rangeError }).damageCurrent

/-- An ORDER error (R152). -/
def State.orderError (s : State) : State :=
  (s.ingestError { s.ingest with orderError := bump s.ingest.orderError }).damageCurrent

/-- Write places held: the queued writes and the write in progress (R3, R154). -/
def State.placesHeld (s : State) : Nat :=
  s.ingest.queue.length +
  match s.transfer with
  | some (.write _) => 1
  | some (.fetch _ _) => 0
  | none => 0

/-- A complete line is offered to the write queue (R154); a write that joins the queue of an idle controller is granted
at once (R162). A duplicate that finds no place leaves the accounted set as its first copy made it (log 28). -/
def State.offerLine (line : Nat) (pixels : List Pixel) (s : State) : State :=
  let emptied := { s.ingest with openLine := none, buffer := [] }
  match s.ingest.slot with
  | none => s.setIngest emptied
  | some i =>
    if s.placesHeld < Config.writePlaces then
      let s1 := s.setIngest
        { emptied with
          queue := s.ingest.queue ++ [{ slot := i, line := line, pixels := pixels }],
          linesQueued := bump s.ingest.linesQueued, accounted := insertLine line s.ingest.accounted }
      (s1.setSlots (s1.slots.queued i)).grant
    else (s.ingestError { emptied with queueFullDrop := bump s.ingest.queueFullDrop }).damageCurrent

/-- A segment's pixels enter the line buffer; at W pixels the line is complete (R152, R154). `before` is the line
buffer up to the segment's first pixel. -/
def State.fillLine (c : Settings) (line first : Nat) (before pixels : List Pixel) (s : State) : State :=
  if c.w ≤ first + pixels.length then s.offerLine line ((before ++ pixels).take c.w)
  else
    s.setIngest
      { s.ingest with openLine := some { line := line, next := first + pixels.length }, buffer := before ++ pixels }

/-- A segment opens line `line` at pixel 0 (R152), a duplicate if the line is accounted for (R153). -/
def State.startLine (c : Settings) (line : Nat) (pixels : List Pixel) (s : State) : State :=
  (s.setIngest
    { s.ingest with
      duplicateLine :=
        if s.ingest.accounted.contains line then bump s.ingest.duplicateLine else s.ingest.duplicateLine }).fillLine
    c line 0 [] pixels

/-- A segment taken with no open line (R152). -/
def State.placeFresh (c : Settings) (line first : Nat) (pixels : List Pixel) (s : State) : State :=
  if first = 0 then s.startLine c line pixels else s.orderError

/-- A segment that has passed the range and format checks is placed against the open line (R152). -/
def State.placeSegment (c : Settings) (line first : Nat) (pixels : List Pixel) (s : State) : State :=
  match s.ingest.openLine with
  | none => s.placeFresh c line first pixels
  | some o =>
    if o.line ≠ line then s.abandonLine.placeFresh c line first pixels
    else if first = o.next then s.fillLine c line first s.ingest.buffer pixels
    else s.orderError.abandonLine

/-- W′: W rounded up to whole groups (R150). -/
def Settings.wholeGroups (c : Settings) : Nat :=
  (c.w + c.format.groupPixels - 1) / c.format.groupPixels * c.format.groupPixels

/-- The number of pixels that a payload of `n` bytes carries (R150). -/
def PixelFormat.pixelCount (f : PixelFormat) (n : Nat) : Nat := n / f.groupBytes * f.groupPixels

/-- A LINE taken in IN_FRAME: range, format, last group, then its place (R149 to R152). -/
def State.takeSegment (c : Settings) (line first : Nat) (payload : List Byte) (s : State) : State :=
  if c.h ≤ line ∨ c.w ≤ first then s.rangeError
  else if payload.length % c.format.groupBytes ≠ 0 ∨ first % c.format.groupPixels ≠ 0 then
    s.ingestError { s.ingest with formatError := bump s.ingest.formatError }
  else if c.wholeGroups < first + c.format.pixelCount payload.length then s.rangeError
  else s.placeSegment c line first (convertPixels c.format payload)

/-- A LINE at the Frame Assembler (R149). -/
def State.takeLine (c : Settings) (line first : Nat) (payload : List Byte) (s : State) : State :=
  match s.ingest.state with
  | .noFrame => s.ingestError { s.ingest with orphanLine := bump s.ingest.orphanLine }
  | .discarding => s
  | .inFrame => s.takeSegment c line first payload

/-! ### FRAME_END (R156) -/

/-- A FRAME_END that does not match: FRAME_MISMATCH, INGEST_ERROR, NO_FRAME. -/
def State.mismatch (s : State) : State :=
  s.ingestError { s.ingest.leaveFrame .noFrame none with frameMismatch := bump s.ingest.frameMismatch }

/-- The verdict of a close is good: DAMAGED is no and every line of 0..H−1 is accounted for (R10, R156). -/
def State.closesGood (c : Settings) (i : Nat) (s : State) : Bool :=
  !s.slots.damaged i && s.ingest.accounted == List.range c.h

/-- The close of the frame in slot `i`, any open line having been abandoned (R10, R156). -/
def State.closeFrame (c : Settings) (i : Nat) (s : State) : State :=
  if s.closesGood c i then
    let s1 := s.setSlots (s.slots.closeGood s.pin i)
    s1.setIngest (s1.ingest.leaveFrame .noFrame none)
  else
    let s1 := s.abandonSlot i
    s1.ingestError { s1.ingest.leaveFrame .noFrame none with incompleteFrame := bump s1.ingest.incompleteFrame }

/-- FRAME_END N at the Frame Assembler (R156). -/
def State.takeFrameEnd (c : Settings) (n : FrameNo) (s : State) : State :=
  match s.ingest.state with
  | .noFrame => s.mismatch
  | .discarding =>
    if s.ingest.frame = some n then s.setIngest (s.ingest.leaveFrame .noFrame none) else s.mismatch
  | .inFrame =>
    if s.ingest.frame = some n then
      let s1 := if s.ingest.openLine.isSome then s.abandonLine else s
      match s1.ingest.slot with
      | some i => s1.closeFrame c i
      | none => s1.setIngest (s1.ingest.leaveFrame .noFrame none)
    else s.abandonCurrent.mismatch

/-! ### Loss of signal and link reset (R157, R158) -/

/-- The Source Link Receiver tells of a loss of signal (R157). -/
def State.assemblerLoss (s : State) : State :=
  match s.ingest.state with
  | .noFrame => s
  | .discarding => s.setIngest (s.ingest.leaveFrame .noFrame none)
  | .inFrame => s.endInProgress

/-- Link reset at the Frame Assembler and the Slot Manager (R18, R158). -/
def State.assemblerReset (s : State) : State :=
  let s1 := s.slotLinkReset
  s1.setIngest (s1.ingest.leaveFrame .noFrame none)

end Sys2Proof.Machine
end

