-- ==== Sys2Proof/Machine/Report.lean ====
section
/-! DEFINITION. The Report Unit (chapter 11): the poll queue, reports and their bodies (13.6), CLEAR and the link
reset. -/

namespace Sys2Proof.Machine

/-! ### Encodings of items (13.6) -/

def flagByte (b : Bool) : Byte := byteOf b.toNat

/-- An optional item of `n` bytes: a presence byte, then the item, sent as zero when absent. -/
def optionalItem (n : Nat) : Option (List Byte) → List Byte
  | some bs => 1 :: bs
  | none => 0 :: List.replicate n 0

/-- A run of counters: one field per counter. -/
def counterFields (cs : List Counter) : List (List Byte) := cs.map bytes16

def addressByte (a : Address) : Byte := byteOf a.toNat

/-- An optional address: 0xFF when absent. -/
def optionalAddress : Option Address → Byte
  | some a => addressByte a
  | none => 0xFF

def StationState.code : StationState → Byte
  | .configuring => 0
  | .configFault => 1
  | .running => 2
  | .withdrawn => 3

def FaultCause.code : FaultCause → Byte
  | .imageCrc => 0
  | .formatCode => 1
  | .fieldRange _ => 2
  | .unusedNonzero => 3
  | .periodRange => 4

/-- The failing field: its row in the table of R183, or 0. -/
def FaultCause.fieldRow : FaultCause → Nat
  | .fieldRange f => f.row
  | .imageCrc => 0
  | .formatCode => 0
  | .unusedNonzero => 0
  | .periodRange => 0

def LinkRxState.code : LinkRxState → Byte
  | .down => 0
  | .hunt => 1
  | .header => 2
  | .payload => 3
  | .skip => 4

def RingRxState.code : RingRxState → Byte
  | .down => 0
  | .hunt => 1
  | .header => 2
  | .payload => 3

def AssemblerState.code : AssemblerState → Byte
  | .noFrame => 0
  | .inFrame => 1
  | .discarding => 2

def SlotState.code : SlotState → BitVec 3
  | .free => 0
  | .filling => 1
  | .closing => 2
  | .complete => 3
  | .shown => 4
  | .draining => 5

def EstimateAction.code : EstimateAction → Byte
  | .lock => 0
  | .trim => 1
  | .slip => 2
  | .jump => 3

/-! ### Report bodies (13.6) -/

/-- IDENT (R189). The configuration is given as the image bytes 0 to 21 that settle it (log 24). -/
def State.identFields (s : State) : List (List Byte) :=
  [bytes16 Config.identification, [Config.revision], [s.loader.station.code]] ++
  match s.loader.station with
  | .running | .withdrawn =>
    match s.loader.settled with
    | some c => [c.imageBytes, bytes24 (BitVec.ofNat 24 c.period)]
    | none => []
  | .configFault =>
    match s.loader.cause with
    | some x => [[x.code], [byteOf x.fieldRow], s.loader.image]
    | none => []
  | .configuring => []

/-- The nine counters of R144. -/
def LinkReceiver.counters (r : LinkReceiver) : List Counter :=
  [r.hdrCorrected, r.hdrBad, r.lengthBad, r.unknownKind, r.crcBad, r.truncated, r.signalLost, r.packetsTaken,
    r.notConfigured]

/-- LINK. -/
def State.linkFields (s : State) : List (List Byte) :=
  [[s.link.state.code]] ++ counterFields s.link.counters ++ [[byteOf s.report.queue.length]] ++
    counterFields [s.report.pollBad, s.report.pollDropped, s.report.reportsSent]

/-- The fourteen counters of R160. -/
def Assembler.counters (u : Assembler) : List Counter :=
  [u.framesBegun, u.linesQueued, u.orphanLine, u.rangeError, u.formatError, u.orderError, u.lineAbandoned,
    u.duplicateLine, u.queueFullDrop, u.staleFrame, u.noSlotDrop, u.abandonedFrame, u.frameMismatch,
    u.incompleteFrame]

/-- A line number, 2 bytes. -/
def lineItem (n : Nat) : List Byte := bytes16 (BitVec.ofNat 16 n)

def Transfer.item : Transfer → List Byte
  | .write w => [0, byteOf w.slot] ++ lineItem w.line
  | .fetch i line => [1, byteOf i] ++ lineItem line

/-- INGEST. -/
def State.ingestFields (s : State) : List (List Byte) :=
  [[s.ingest.state.code], optionalItem 2 (s.ingest.frame.map bytes16),
    optionalItem 1 (s.ingest.slot.map fun i => [byteOf i]), lineItem s.ingest.accounted.length,
    optionalItem 4 (s.ingest.openLine.map fun o => lineItem o.line ++ lineItem o.next), [byteOf s.placesHeld]] ++
  counterFields (s.ingest.counters ++ [s.slots.framesCompleted, s.slots.evicted]) ++
  [optionalItem 4 (s.transfer.map Transfer.item)]

/-- An entry of the SLOTS report, 6 bytes. The FRAME of a record without one, which the presence bit shows, is sent as 0
(log 30: the model's choice). -/
def Slot.item (index : Nat) (r : Slot) : List Byte :=
  [byteOf index,
    (0#3 : BitVec 3) ++ BitVec.ofBool r.frame.isSome ++ BitVec.ofBool r.damaged ++ r.state.code] ++
  bytes16 (r.frame.getD 0) ++
  bytes16 ((0#2 : BitVec 2) ++ BitVec.ofNat 3 r.pending ++ BitVec.ofNat 11 r.written.length)

/-- The entries of SLOTS in ascending order, each with its INDEX. -/
def State.slotEntries (s : State) : List (Nat × List Byte) :=
  s.slots.table.mapIdx fun i r => (i, r.item i)

/-- An entry of the ROSTER report, 10 + 2n bytes. The SHOWN of an entry without one, which the presence bit shows, is sent
as 0 (log 30: the model's choice). -/
def Entry.item (x : Entry) : List Byte :=
  [addressByte x.address,
    (0#1 : BitVec 1) ++ x.said.lock.code ++ x.said.role.code ++ BitVec.ofBool x.said.capable ++
      BitVec.ofBool x.member,
    (0#3 : BitVec 3) ++ BitVec.ofBool x.said.shown.isSome ++ BitVec.ofBool x.said.mismatch ++
      BitVec.ofBool x.said.conflict ++ x.said.ring.code] ++
  bytes16 (x.said.shown.getD 0) ++ bytes16 x.said.epoch ++
  [x.lastSequence, byteOf x.silence, byteOf x.said.list.length] ++ x.said.list.flatMap bytes16

/-- Every roster entry in ascending address order, the own entry among them (R44, R57). -/
def State.roll (s : State) : List Entry :=
  match s.loader.settled with
  | some c => s.allEntries c
  | none => s.roster.entries

/-- The entries of ROSTER, each with its address. -/
def State.rosterEntries (s : State) : List (Nat × List Byte) :=
  s.roll.map fun x => (x.address.toNat, x.item)

/-- The Last LEAVE. Where there is none, which 0xFF shows, the reason byte is sent as 0 (log 30: the model's choice). -/
def LastLeave.item : Option LastLeave → List Byte
  | some x => [addressByte x.address, x.reason]
  | none => [0xFF, 0]

/-- The fixed fields of ROSTER: Last LEAVE and the five counters of R57. -/
def State.rosterFixed (s : State) : List (List Byte) :=
  [LastLeave.item s.roster.lastLeave] ++
  counterFields
    [s.roster.standingsTaken, s.roster.duplicateStanding, s.roster.rosterRefused, s.roster.entriesAged,
      s.roster.leavesTaken]

def LastBeat.item (b : LastBeat) : List Byte :=
  [addressByte b.origin] ++ bytes16 b.epoch ++ optionalItem 2 (b.decision.map bytes16) ++ [b.participants] ++
    bytes16 b.delay

def Estimate.item (x : Estimate) : List Byte :=
  bytes16 x.beatEpoch ++ bytes32 (BitVec.ofInt 32 x.phaseError) ++ [x.action.code] ++
    bytes32 (BitVec.ofInt 32 x.correction)

/-- TIMING. -/
def State.timingFields (s : State) : List (List Byte) :=
  [[byteOf s.role.role.code.toNat], [optionalAddress s.role.current], [byteOf s.role.beatsMissed],
    [byteOf s.role.listening], optionalItem 9 (s.role.lastBeat.map LastBeat.item)] ++
  counterFields
    [s.role.beatsAccepted, s.role.ignoredBeats, s.role.dueling, s.role.periodMismatch, s.role.claims,
      s.role.yields] ++
  [[byteOf s.timing.lock.code.toNat], bytes16 s.timing.epoch, bytes16 s.timing.frameCount,
    [byteOf s.timing.timedMissed], [byteOf s.timing.slip], [byteOf s.timing.holdover],
    optionalItem 11 (s.timing.estimate.map Estimate.item)] ++
  counterFields
    [s.timing.jumps, s.timing.slips, s.timing.epochStep, s.timing.holdoverEntries, s.timing.saturatedDelay]

def Decision.item (d : Decision) : List Byte := bytes16 d.target ++ bytes16 d.frame

/-- PRESENT. -/
def State.presentFields (s : State) : List (List Byte) :=
  [optionalItem 2 (s.presentation.shown.map bytes16), optionalItem 4 (s.presentation.decision.map Decision.item),
    byteOf s.slots.complete.length :: s.slots.complete.flatMap bytes16] ++
  counterFields
    [s.presentation.presented, s.presentation.repeated, s.presentation.missed, s.presentation.staleDecision,
      s.presentation.lateDecision, s.presentation.decisionsMade, s.slots.skipped] ++
  [optionalItem 1 (s.scan.slot.map fun i => [byteOf i])] ++
  counterFields [s.scan.underrun, s.scan.cutFrames, s.scan.fetches, s.scan.staleFetch]

/-- RING OUT in the RING report: 0 IDLE, 1 sending forwarded, 2 sending local. -/
def RingTransmitter.outCode (t : RingTransmitter) : Byte :=
  match t.sending with
  | none => 0
  | some x =>
    match x.source with
    | .forwarded _ => 1
    | .own _ => 2

/-- The places: bit 0 LEAVE, bit 1 BEAT, bit 2 STANDING. -/
def RingTransmitter.placeBits (t : RingTransmitter) : Byte :=
  (0#5 : BitVec 5) ++ BitVec.ofBool t.standing ++ BitVec.ofBool t.beat.isSome ++ BitVec.ofBool t.leave

/-- The thirteen counters of R112. -/
def RingReceiver.counters (r : RingReceiver) : List Counter :=
  [r.hdrCorrected, r.hdrBad, r.lengthBad, r.stripped, r.orphan, r.forwardOverflow, r.crcFirst, r.taintedIn,
    r.truncated, r.signalLost, r.forwarded, r.consumed, r.beatRefused]

/-- The seven counters of R129. -/
def RingTransmitter.counters (t : RingTransmitter) : List Counter :=
  [t.localSent, t.beatReplaced, t.standingReplaced, t.takenBack, t.lostOwn, t.addressConflict, t.delayCapped]

def Outstanding.item (o : Outstanding) : List Byte := [o.sequence, o.kind.code] ++ bytes16 o.departed

/-- RING. -/
def State.ringFields (s : State) : List (List Byte) :=
  [[s.ringIn.state.code], optionalItem 2 (s.ringIn.packet.map fun p => [byteOf p.bytes, flagByte p.reserved])] ++
  counterFields s.ringIn.counters ++
  [[byteOf s.ringOut.occupancy], [byteOf s.ringOut.queue.length], [s.ringOut.outCode], [s.ringOut.placeBits],
    [s.ringOut.sequence], [byteOf s.ringOut.ring.code.toNat], [byteOf s.ringOut.outstanding.length]] ++
  s.ringOut.outstanding.map Outstanding.item ++ counterFields s.ringOut.counters

/-! ### The cut (R174, R176) -/

/-- The longest leading run of whole fields that fits into `room` bytes. -/
def takeFields (room : Nat) : List (List Byte) → List (List Byte)
  | [] => []
  | f :: fs => if f.length ≤ room then f :: takeFields (room - f.length) fs else []

/-- A report of a kind without entries (R174); `fields` is what follows the notice set. -/
def cutReport (kind : ReportKind) (max : Nat) (notices : BitVec 16) (fields : List (List Byte)) : Report :=
  let kept := takeFields (max - 2) fields
  { kind := kind, truncated := decide (kept.length < fields.length), unavailable := false, nextIndex := none,
    payload := bytes16 notices ++ kept.flatten }

/-- A report of SLOTS or ROSTER (R176): fixed fields, then the entries from the start index. The next index is that of
the first entry left out, or the start index itself where no entry fits. -/
def pageReport (p : Poll) (notices : BitVec 16) (fixed : List Byte) (entries : List (Nat × List Byte)) : Report :=
  let asked := entries.filter fun x => decide (p.start.toNat ≤ x.1)
  let kept := takeFields (p.max - 2 - fixed.length) (asked.map Prod.snd)
  { kind := p.kind, truncated := decide (kept.length < asked.length), unavailable := false,
    nextIndex :=
      match asked[kept.length]? with
      | some x => some (if kept.length = 0 then p.start else byteOf x.1)
      | none => none,
    payload := bytes16 notices ++ fixed ++ kept.flatten }

/-- The report of a kind, from the live state (R175). -/
def State.contentOf (p : Poll) (s : State) : Report :=
  match p.kind with
  | .ident => cutReport .ident p.max s.notices s.identFields
  | .link => cutReport .link p.max s.notices s.linkFields
  | .ingest => cutReport .ingest p.max s.notices s.ingestFields
  | .slots => pageReport p s.notices [byteOf s.slots.table.length] s.slotEntries
  | .roster => pageReport p s.notices s.rosterFixed.flatten s.rosterEntries
  | .timing => cutReport .timing p.max s.notices s.timingFields
  | .present => cutReport .present p.max s.notices s.presentFields
  | .ring => cutReport .ring p.max s.notices s.ringFields

/-- IDENT and LINK are built with their full content in CONFIG_FAULT (R181). -/
def ReportKind.inConfigFault : ReportKind → Bool
  | .ident => true
  | .link => true
  | .ingest => false
  | .slots => false
  | .roster => false
  | .timing => false
  | .present => false
  | .ring => false

/-- The report built for a POLL (R173, R181). -/
def State.reportOf (p : Poll) (s : State) : Report :=
  if s.loader.station == .configFault && !p.kind.inConfigFault then
    { kind := p.kind, truncated := false, unavailable := true, nextIndex := none, payload := bytes16 s.notices }
  else s.contentOf p

/-! ### Sending (R173) -/

/-- A report begins when the return lane is IDLE and the poll queue holds a POLL: the head leaves, the notice set goes
into the report and is emptied, the content is taken and cut (R173). -/
def State.beginReport (s : State) : State :=
  match s.report.sending, s.report.queue with
  | none, p :: rest =>
    let s1 := s.setReport { s.report with queue := rest }
    (s1.setReport { s1.report with sending := some (s1.reportOf p) }).setNotices 0
  | _, _ => s

/-- The report in transmission completes (R173). While the return lane is IDLE there is none (log 6). -/
def State.reportDone (s : State) : State :=
  match s.report.sending with
  | none => s
  | some _ => (s.setReport { s.report with sending := none, reportsSent := bump s.report.reportsSent }).beginReport

/-- REPORT_COMPLETE (R173). -/
def execReportComplete (e : Elapsed) (s : State) : Host.Outcome State Fault Refusal :=
  onEvent e State.reportDone s

/-- The header of a REPORT packet (13.5). -/
def Report.header (r : Report) : LinkHeader :=
  { kind := reportKindCode,
    a := (0#6 : BitVec 6) ++ BitVec.ofBool r.unavailable ++ BitVec.ofBool r.truncated ++ byteOf r.kind.code,
    b := match r.nextIndex with
      | some i => (0#8 : BitVec 8) ++ i
      | none => 0xFFFF#16,
    length := BitVec.ofNat 14 r.payload.length }

/-- The bytes of a REPORT packet (R173). -/
def Report.bytes (r : Report) : List Byte := protectHeader r.header.bits ++ protectPayload r.payload

/-- What the return lane carries: start marker and bytes of the report in transmission, or fill (R173, R190). -/
def State.returnLaneSymbols (s : State) : List LineSymbol :=
  match s.report.sending with
  | some r => [.startMarker] ++ r.bytes.map .data
  | none => [.fill]

/-- The bits that the return lane carries, each symbol in its serial form (R190). -/
def State.returnLaneBits (s : State) : List Bool := s.returnLaneSymbols.flatMap LineSymbol.serial

/-! ### Taking a POLL (R172) -/

/-- The POLL of a header, absent where its kind or max return fails the check (R172, 13.5). -/
def pollOf (h : LinkHeader) : Option Poll :=
  match ReportKind.ofCode (h.a.extractLsb' 0 8) with
  | some k => if within 16 1024 h.b.toNat then some ⟨k, h.a.extractLsb' 8 8, h.b.toNat⟩ else none
  | none => none

/-- A POLL at the Report Unit (R172). -/
def State.takePoll (h : LinkHeader) (s : State) : State :=
  match pollOf h with
  | none => s.setReport { s.report with pollBad := bump s.report.pollBad }
  | some p =>
    if s.report.sending.isSome ∧ Config.pollPlaces ≤ s.report.queue.length then
      (s.setReport { s.report with pollDropped := bump s.report.pollDropped }).raise .pollOverrun
    else (s.setReport { s.report with queue := s.report.queue ++ [p] }).beginReport

/-! ### CLEAR (R178) -/

def RingReceiver.cleared (r : RingReceiver) : RingReceiver :=
  { r with
    hdrCorrected := 0, hdrBad := 0, lengthBad := 0, stripped := 0, orphan := 0, forwardOverflow := 0, crcFirst := 0,
    taintedIn := 0, truncated := 0, signalLost := 0, forwarded := 0, consumed := 0, beatRefused := 0 }

def RingTransmitter.cleared (t : RingTransmitter) : RingTransmitter :=
  { t with
    localSent := 0, beatReplaced := 0, standingReplaced := 0, takenBack := 0, lostOwn := 0, addressConflict := 0,
    delayCapped := 0 }

def RosterUnit.cleared (r : RosterUnit) : RosterUnit :=
  { r with standingsTaken := 0, duplicateStanding := 0, rosterRefused := 0, entriesAged := 0, leavesTaken := 0 }

def LinkReceiver.cleared (r : LinkReceiver) : LinkReceiver :=
  { r with
    hdrCorrected := 0, hdrBad := 0, lengthBad := 0, unknownKind := 0, crcBad := 0, truncated := 0, signalLost := 0,
    packetsTaken := 0, notConfigured := 0 }

def ReportUnit.cleared (u : ReportUnit) : ReportUnit :=
  { u with pollBad := 0, pollDropped := 0, reportsSent := 0 }

def Assembler.cleared (u : Assembler) : Assembler :=
  { u with
    framesBegun := 0, linesQueued := 0, orphanLine := 0, rangeError := 0, formatError := 0, orderError := 0,
    lineAbandoned := 0, duplicateLine := 0, queueFullDrop := 0, staleFrame := 0, noSlotDrop := 0,
    abandonedFrame := 0, frameMismatch := 0, incompleteFrame := 0 }

def Presentation.cleared (p : Presentation) : Presentation :=
  { p with
    presented := 0, repeated := 0, missed := 0, staleDecision := 0, lateDecision := 0, decisionsMade := 0 }

def RoleUnit.cleared (r : RoleUnit) : RoleUnit :=
  { r with beatsAccepted := 0, ignoredBeats := 0, dueling := 0, periodMismatch := 0, claims := 0, yields := 0 }

def TimingUnit.cleared (u : TimingUnit) : TimingUnit :=
  { u with jumps := 0, slips := 0, epochStep := 0, holdoverEntries := 0, saturatedDelay := 0 }

def ScanOut.cleared (u : ScanOut) : ScanOut :=
  { u with underrun := 0, cutFrames := 0, fetches := 0, staleFetch := 0 }

def State.clearRing (s : State) : State :=
  ((s.setRingIn s.ringIn.cleared).setRingOut s.ringOut.cleared).setRoster s.roster.cleared

def State.clearLink (s : State) : State := (s.setLink s.link.cleared).setReport s.report.cleared

def State.clearIngest (s : State) : State :=
  (s.setIngest s.ingest.cleared).setSlots { s.slots with framesCompleted := 0, evicted := 0 }

def State.clearPresent (s : State) : State :=
  (s.setPresentation s.presentation.cleared).setSlots { s.slots with skipped := 0 }

def State.clearTiming (s : State) : State := (s.setRole s.role.cleared).setTiming s.timing.cleared

def State.clearScan (s : State) : State := s.setScan s.scan.cleared

/-- A selected group is cleared. -/
def State.clearIf (selected : Bool) (clear : State → State) (s : State) : State :=
  if selected then clear s else s

/-- CLEAR at the Report Unit (R178): the groups that A selects by bit (13.5). The Report Unit counts the CLEAR nowhere; its
completion at the Source Link Receiver has been counted before it comes here (R141), and goes with the group LINK where
that is selected (log 16). -/
def State.takeClear (a : BitVec 16) (s : State) : State :=
  (((((s.clearIf (a.getLsbD 0) State.clearRing).clearIf (a.getLsbD 1) State.clearLink).clearIf (a.getLsbD 2)
    State.clearIngest).clearIf (a.getLsbD 3) State.clearPresent).clearIf (a.getLsbD 4) State.clearTiming).clearIf
    (a.getLsbD 5) State.clearScan

/-! ### LINK_RESET (R179) -/

/-- LINK_RESET at the Report Unit (R179): the assembler and the slots are reset, the poll queue is emptied. The
receiver is in HUNT with no packet in reception as its LINK_RESET completes (R141). -/
def State.takeLinkReset (s : State) : State :=
  let s1 := s.assemblerReset
  s1.setReport { s1.report with queue := [] }

end Sys2Proof.Machine
end

