-- ==== Sys2Proof/Machine/Station.lean ====
section
/-! DEFINITION. The Configuration Loader (chapter 12): device reset, the image read and its check, the entry to
RUNNING and to CONFIG_FAULT, WITHDRAW and REJOIN. -/

namespace Sys2Proof.Machine

/-! ### Device reset (R188) -/

/-- The bytes of a line whose write was cut: free values (log 11). -/
def cutBytes (draw address n : Nat) : List Byte :=
  (List.range n).map fun j => Config.cutLineByte draw (address + j)

/-- The line write that a device reset cuts, inside the frame memory: its first address and its size (R163). -/
def State.cutWrite (s : State) : Option (Nat × Nat) :=
  match s.transfer, s.loader.settled with
  | some (.write w), some c =>
    if c.lineInside w.slot w.line then some (c.lineAddress w.slot w.line, c.w * 3) else none
  | _, _ => none

/-- Device reset (R188): every block takes its reset values, the part is held in the reset, and the transfer on the
frame memory ends without a completion (R163). Frame memory is not cleared (R17). -/
def State.deviceReset (s : State) : State :=
  match s.cutWrite with
  | some (a, n) =>
    State.afterReset true s.pending s.link.signal (Memory.write s.mem a (cutBytes s.draws a n)) (s.draws + 1)
  | none => State.afterReset true s.pending s.link.signal s.mem s.draws

/-- The cause resets the part: power-on, or RESET_N low for at least 1 microsecond (R188). -/
def ResetCause.resets : ResetCause → Bool
  | .powerOn => true
  | .resetPin lowTicks => decide (Config.resetPulseTicks ≤ lowTicks)

/-- DEVICE_RESET (R188). A shorter pulse is filtered out and causes no reset; so is one that comes while the part is
already held in reset. -/
def execDeviceReset (e : Elapsed) (cause : ResetCause) (s : State) : Host.Outcome State Fault Refusal :=
  if ResetCause.resets cause then .next s.deviceReset else onEvent e id s

/-- RESET_END (R183, R188): station time starts from 0 and the read is under way. While no device reset lasts there is
none to end (log 6). -/
def execResetEnd (e : Elapsed) (s : State) : Host.Outcome State Fault Refusal :=
  if s.held then .next ((s.setHeld false).setNow 0) else .next (s.elapse e)

/-! ### The check of the image (R184 to R186) -/

/-- The hold of the Source Link Receiver ends (R131): HUNT if the lane recovers symbols, otherwise DOWN. -/
def LinkReceiver.release (r : LinkReceiver) : LinkReceiver :=
  { r with state := if r.signal then .hunt else .down }

/-- The frame timer starts (R75). -/
def TimingUnit.start (c : Settings) (now : Tick) (u : TimingUnit) : TimingUnit :=
  { u with
    timer := some { last := now, next := now + BitVec.ofNat 32 c.period, line := 0 }, epoch := 0, frameCount := 0,
    lock := .free }

/-- Entry to RUNNING from CONFIGURING (R185). -/
def State.enterRunning (image : List Byte) (c : Settings) (s : State) : State :=
  let s1 := s.setLoader { station := .running, image := image, settled := some c, cause := none }
  let s2 := s1.setSlots { s1.slots with table := List.replicate c.slotCount .freed }
  let s3 := s2.setRoster { s2.roster with ownPresent := true }
  let s4 := (s3.setRole { s3.role with role := .listening, listening := 0 }).raise .roleChanged
  let s5 := s4.setTiming (s4.timing.start c s4.now)
  (s5.setLink s5.link.release).beginLine c 0

/-- Entry to CONFIG_FAULT (R186). -/
def State.enterConfigFault (image : List Byte) (cause : FaultCause) (s : State) : State :=
  let s1 := s.setLoader { station := .configFault, image := image, settled := none, cause := some cause }
  s1.setLink s1.link.release

/-- The 24 bytes of the image are in (R184). -/
def State.imageRead (image : List Byte) (s : State) : State :=
  match checkImage image with
  | .ok c => s.enterRunning image c
  | .error cause => s.enterConfigFault image cause

/-- The bytes given end the read. Where they do not, or no read is under way, the 24th byte has not been taken, and
the event does not arise (log 6). -/
def State.imageBytesTaken (rest : List Byte) (s : State) : State :=
  if s.loader.station = .configuring ∧ (s.loader.image ++ rest).length = Config.imageBytes then
    s.imageRead (s.loader.image ++ rest)
  else s

/-- CONFIG_READ_COMPLETE (R184). -/
def execConfigReadComplete (e : Elapsed) (rest : List Byte) (s : State) : Host.Outcome State Fault Refusal :=
  onEvent e (State.imageBytesTaken rest) s

/-! ### WITHDRAW and REJOIN (R180, R187) -/

/-- The Role Controller at entry to WITHDRAWN (R71). -/
def State.enterStandby (s : State) : State :=
  let s1 :=
    if s.role.role = .origin then
      let s2 := s.departOrigin .standby
      s2.setRole { s2.role with current := none }
    else (s.setRole { s.role with role := .standby }).raise .roleChanged
  s1.setRole { s1.role with listening := 0 }

/-- WITHDRAW taken while RUNNING (R180): the station state, the role, the pending decision, the own entry, and the
places of the Ring Transmitter. -/
def State.enterWithdrawn (s : State) : State :=
  let s1 := (s.setLoader { s.loader with station := .withdrawn }).enterStandby
  let s2 := s1.setPresentation { s1.presentation with decision := none }
  (s2.setRoster { s2.roster with ownPresent := false }).takeBackStanding.offerLeave

/-- WITHDRAW at the Configuration Loader (R187). -/
def State.takeWithdraw (s : State) : State :=
  match s.loader.station with
  | .running => s.enterWithdrawn
  | .withdrawn => s
  | .configuring => s
  | .configFault => s

/-- REJOIN taken while WITHDRAWN (R71, R180). -/
def State.enterRejoined (s : State) : State :=
  let s1 := s.setLoader { s.loader with station := .running }
  let s2 := (s1.setRole { s1.role with role := .listening, listening := 0 }).raise .roleChanged
  s2.setRoster { s2.roster with ownPresent := true }

/-- REJOIN at the Configuration Loader (R187). -/
def State.takeRejoin (s : State) : State :=
  match s.loader.station with
  | .withdrawn => s.enterRejoined
  | .running => s
  | .configuring => s
  | .configFault => s

end Sys2Proof.Machine
end

