-- ==== Sys2Proof/Machine/Link.lean ====
section
/-! DEFINITION. The Source Link Receiver (chapter 8): signal, framing, the header checks, the skip, the LINE payload,
completion and routing. -/

namespace Sys2Proof.Machine

/-- The packet in reception leaves the receiver, which takes a state (8.2). -/
def LinkReceiver.leave (st : LinkRxState) (r : LinkReceiver) : LinkReceiver :=
  { r with state := st, packet := none }

/-- The receiver takes a value with a count, and LINK_ERROR is raised (R142). -/
def State.linkError (r : LinkReceiver) (s : State) : State := (s.setLink r).raise .linkError

/-- The receiver is held DOWN while the station is CONFIGURING (R131). -/
def State.linkHeld (s : State) : Bool := s.loader.station == .configuring

/-! ### Signal (R131, R132) -/

/-- Loss of signal (R132); in DOWN and while held DOWN it is not taken. -/
def State.linkLoss (s : State) : State :=
  let s1 := s.setLink { s.link with signal := false }
  if s.linkHeld || s.link.state == .down then s1
  else
    (s1.linkError { s1.link.leave .down with signalLost := bump s1.link.signalLost }).assemblerLoss

/-- Signal present moves DOWN to HUNT (R132), unless the receiver is held DOWN (R131). -/
def State.linkSignal (s : State) : State :=
  let s1 := s.setLink { s.link with signal := true }
  if s.linkHeld then s1
  else if s.link.state = .down then s1.setLink { s1.link with state := .hunt }
  else s1

/-- LINK_LOSS_OF_SIGNAL (R132). While a device reset lasts the lane still loses its symbols (log 9). -/
def execLinkLossOfSignal (e : Elapsed) (s : State) : Host.Outcome State Fault Refusal :=
  if s.held then .next (s.setLink { s.link with signal := false }) else .next (s.elapse e).linkLoss

/-- LINK_SIGNAL_PRESENT (R132). While a device reset lasts the lane still gains its symbols (log 9). -/
def execLinkSignalPresent (e : Elapsed) (s : State) : Host.Outcome State Fault Refusal :=
  if s.held then .next (s.setLink { s.link with signal := true }) else .next (s.elapse e).linkSignal

/-! ### Framing (R133, R134) -/

/-- A packet cut in SKIP counts TRUNCATED when it is a FILLER; one already counted at its header does not (R134). -/
def LinkRxPacket.filler (p : LinkRxPacket) : Bool :=
  match p.header with
  | some h => LinkKind.ofCode h.kind == some .filler
  | none => false

/-- The packet in reception, if one is, ends early, and the receiver takes HUNT (R134). -/
def State.linkCut (s : State) : State :=
  match s.link.packet with
  | none => s
  | some p =>
    let left := s.link.leave .hunt
    if s.link.state = .skip ∧ p.filler = false then s.setLink left
    else s.linkError { left with truncated := bump left.truncated }

/-- A new packet in reception (R133). -/
def LinkReceiver.begin (r : LinkReceiver) : LinkReceiver :=
  { r with state := .header, packet := some { taken := [], header := none, remaining := 0 } }

/-- A start marker (R133, R134); in DOWN nothing is received. -/
def State.linkMarker (s : State) : State :=
  if s.link.state = .down then s
  else
    let s1 := s.linkCut
    s1.setLink s1.link.begin

/-! ### Completion and routing (R141) -/

/-- A packet completes: the receiver takes HUNT and PACKETS_TAKEN rises, whatever its kind, a CLEAR among them (R141,
R144; log 16). -/
def LinkReceiver.complete (r : LinkReceiver) : LinkReceiver :=
  { r.leave .hunt with packetsTaken := bump r.packetsTaken }

/-- A packet dropped for the station state (R141). -/
def State.notConfigured (s : State) : State :=
  s.setLink { s.link with notConfigured := bump s.link.notConfigured }

/-- A packet for the frame path or the Configuration Loader: handed over in RUNNING and WITHDRAWN, otherwise dropped
(R141). -/
def State.ifConfigured (hand : Settings → State → State) (s : State) : State :=
  match s.active with
  | some c => hand c s
  | none => s.notConfigured

/-- A packet complete at its header is handed to its block (R141). A LINE and a FILLER do not come here. -/
def State.routePacket (k : LinkKind) (h : LinkHeader) (s : State) : State :=
  match k with
  | .frameBegin => s.ifConfigured fun _ => State.takeFrameBegin h.a
  | .frameEnd => s.ifConfigured fun c => State.takeFrameEnd c h.a
  | .poll => s.takePoll h
  | .clear => s.takeClear h.a
  | .linkReset => s.takeLinkReset
  | .withdraw => s.ifConfigured fun _ => State.takeWithdraw
  | .rejoin => s.ifConfigured fun _ => State.takeRejoin
  | .line => s
  | .filler => s

/-! ### The header (R135 to R141) -/

/-- The payload and CRC that follow a header are counted off, REMAINING = Length + 2; without a payload the packet ends
at its header (R137 to R139). -/
def LinkReceiver.skip (h : LinkHeader) (r : LinkReceiver) : LinkReceiver :=
  if h.length = 0 then r.leave .hunt
  else
    { r with
      state := .skip, packet := some { taken := [], header := some h, remaining := h.length.toNat + 2 } }

/-- A header that has passed the check of R135, by what becomes of it (R136 to R141). -/
def State.linkHeaderGood (h : LinkHeader) (s : State) : State :=
  match linkFate h with
  | .tooLong => s.linkError { s.link.leave .hunt with lengthBad := bump s.link.lengthBad }
  | .unknown => s.linkError { s.link.skip h with unknownKind := bump s.link.unknownKind }
  | .wrongLength => s.linkError { s.link.skip h with lengthBad := bump s.link.lengthBad }
  | .filler => s.setLink (if h.length = 0 then s.link.complete else s.link.skip h)
  | .linePayload =>
    s.setLink
      { s.link with
        state := .payload, packet := some { taken := [], header := some h, remaining := h.length.toNat + 2 } }
  | .complete k => (s.setLink s.link.complete).routePacket k h

/-- The eighth header byte is taken (R135). -/
def State.linkHeaderCheck (bytes : List Byte) (s : State) : State :=
  match checkHeader bytes with
  | .good h => s.linkHeaderGood (linkHeader h)
  | .corrected h =>
    (s.setLink { s.link with hdrCorrected := bump s.link.hdrCorrected }).linkHeaderGood (linkHeader h)
  | .bad => s.linkError { s.link.leave .hunt with hdrBad := bump s.link.hdrBad }

/-- The bytes given end the header in reception. Where they do not, the eighth byte has not been taken, and the event
does not arise (log 6). The bytes decide what becomes of the packet (log 4). -/
def State.linkEighthByte (rest : List Byte) (s : State) : State :=
  match s.link.packet with
  | some p =>
    match p.header with
    | none => if (p.taken ++ rest).length = 8 then s.linkHeaderCheck (p.taken ++ rest) else s
    | some _ => s
  | none => s

/-- LINK_HDR_BAD (R135). -/
def execLinkHdrBad (e : Elapsed) (rest : List Byte) (s : State) : Host.Outcome State Fault Refusal :=
  onEvent e (State.linkEighthByte rest) s

/-- LINK_LENGTH_BAD (R136, R138). -/
def execLinkLengthBad (e : Elapsed) (rest : List Byte) (s : State) : Host.Outcome State Fault Refusal :=
  onEvent e (State.linkEighthByte rest) s

/-- UNKNOWN_KIND (R137). -/
def execUnknownKind (e : Elapsed) (rest : List Byte) (s : State) : Host.Outcome State Fault Refusal :=
  onEvent e (State.linkEighthByte rest) s

/-- FILLER (R139). -/
def execFiller (e : Elapsed) (rest : List Byte) (s : State) : Host.Outcome State Fault Refusal :=
  onEvent e (State.linkEighthByte rest) s

/-- FRAME_BEGIN (R146 to R148). -/
def execFrameBegin (e : Elapsed) (rest : List Byte) (s : State) : Host.Outcome State Fault Refusal :=
  onEvent e (State.linkEighthByte rest) s

/-- FRAME_END (R156). -/
def execFrameEnd (e : Elapsed) (rest : List Byte) (s : State) : Host.Outcome State Fault Refusal :=
  onEvent e (State.linkEighthByte rest) s

/-- POLL (R172). -/
def execPoll (e : Elapsed) (rest : List Byte) (s : State) : Host.Outcome State Fault Refusal :=
  onEvent e (State.linkEighthByte rest) s

/-- CLEAR (R178). -/
def execClear (e : Elapsed) (rest : List Byte) (s : State) : Host.Outcome State Fault Refusal :=
  onEvent e (State.linkEighthByte rest) s

/-- LINK_RESET (R179). -/
def execLinkReset (e : Elapsed) (rest : List Byte) (s : State) : Host.Outcome State Fault Refusal :=
  onEvent e (State.linkEighthByte rest) s

/-- WITHDRAW (R187). -/
def execWithdraw (e : Elapsed) (rest : List Byte) (s : State) : Host.Outcome State Fault Refusal :=
  onEvent e (State.linkEighthByte rest) s

/-- REJOIN (R187). -/
def execRejoin (e : Elapsed) (rest : List Byte) (s : State) : Host.Outcome State Fault Refusal :=
  onEvent e (State.linkEighthByte rest) s

/-- LINK_HEADER_TAKEN (R135, R140). -/
def execLinkHeaderTaken (e : Elapsed) (rest : List Byte) (s : State) : Host.Outcome State Fault Refusal :=
  onEvent e (State.linkEighthByte rest) s

/-! ### The LINE payload (R140) -/

/-- The last CRC byte of a LINE is taken; `body` is payload and CRC as received (R140, R141). -/
def State.lineTaken (h : LinkHeader) (body : List Byte) (s : State) : State :=
  if crcGood h.length.toNat body then
    (s.setLink s.link.complete).ifConfigured fun c =>
      State.takeLine c h.a.toNat h.b.toNat (body.take h.length.toNat)
  else s.linkError { s.link.leave .hunt with crcBad := bump s.link.crcBad }

/-- The bytes given end the payload and CRC of the LINE in reception. Where they do not, the last CRC byte has not
been taken, and the event does not arise (log 6). -/
def State.lineLastByte (rest : List Byte) (s : State) : State :=
  match s.link.state, s.link.packet with
  | .payload, some p =>
    match p.header with
    | some h => if (p.taken ++ rest).length = h.length.toNat + 2 then s.lineTaken h (p.taken ++ rest) else s
    | none => s
  | _, _ => s

/-- LINE (R140, R149 to R154). -/
def execLine (e : Elapsed) (rest : List Byte) (s : State) : Host.Outcome State Fault Refusal :=
  onEvent e (State.lineLastByte rest) s

/-! ### The end of a skip (R139) -/

/-- The byte that brings REMAINING to 0 ends the skip; a FILLER counts PACKETS_TAKEN (R139). The bytes before it,
however many were still to come, go with the event (log 3). -/
def State.skipLast (s : State) : State :=
  match s.link.state, s.link.packet with
  | .skip, some p => s.setLink (if p.filler then s.link.complete else s.link.leave .hunt)
  | _, _ => s

/-- SKIP_LAST_BYTE (R139). -/
def execSkipLastByte (e : Elapsed) (s : State) : Host.Outcome State Fault Refusal :=
  onEvent e State.skipLast s

/-! ### Symbols (R190) -/

/-- A data byte taken on the forward lane (8.2): it ends the header, the LINE or the skip in reception, joins what is
collected or counted off, or is discarded. -/
def State.linkData (b : Byte) (s : State) : State :=
  match s.link.packet with
  | none => s
  | some p =>
    match p.header with
    | none => if p.taken.length < 7 then s.setLink (s.link.collect [b]) else s.linkEighthByte [b]
    | some _ =>
      if 1 < p.remaining then s.setLink (s.link.collect [b])
      else if s.link.state = .payload then s.lineLastByte [b]
      else s.skipLast

/-- A symbol taken on the forward lane. -/
def State.linkSymbol (x : LineSymbol) (s : State) : State :=
  match x with
  | .startMarker => s.linkMarker
  | .fill => s.linkCut
  | .data b => s.linkData b

/-- Ten bits received on the forward lane are taken as the symbol that R190 gives. -/
def State.linkReceives (bits : List Bool) (s : State) : State := s.linkSymbol (receiveSerial bits)

/-- LINK_START_MARKER (R133): the start marker as it is sent. -/
def execLinkStartMarker (e : Elapsed) (s : State) : Host.Outcome State Fault Refusal :=
  onEvent e (State.linkReceives LineSymbol.startMarker.serial) s

/-- LINK_FILL (R134): fill as it is sent, and every code that is taken as fill (R190); in DOWN and HUNT it is
discarded. -/
def execLinkFill (e : Elapsed) (s : State) : Host.Outcome State Fault Refusal :=
  onEvent e (State.linkReceives LineSymbol.fill.serial) s

end Sys2Proof.Machine
end

