-- ==== Sys2Proof/Machine/Dispatch.lean ====
section
/-! DEFINITION. The dispatch: one arm per command. -/

namespace Sys2Proof.Machine

open Sys2Proof

def exec (i : Instr) (s : State) : Host.Outcome State Fault Refusal :=
  match i with
  | .deviceReset e cause => Sys2Proof.Machine.execDeviceReset e cause s
  | .resetEnd e => Sys2Proof.Machine.execResetEnd e s
  | .configReadComplete e rest => Sys2Proof.Machine.execConfigReadComplete e rest s
  | .ringLossOfSignal e => Sys2Proof.Machine.execRingLossOfSignal e s
  | .ringSignalPresent e => Sys2Proof.Machine.execRingSignalPresent e s
  | .ringStartMarker e => Sys2Proof.Machine.execRingStartMarker e s
  | .ringFill e => Sys2Proof.Machine.execRingFill e s
  | .ringHeaderTaken e rest => Sys2Proof.Machine.execRingHeaderTaken e rest s
  | .ringPacketComplete e rest order => Sys2Proof.Machine.execRingPacketComplete e rest order s
  | .ringTransmissionComplete e => Sys2Proof.Machine.execRingTransmissionComplete e s
  | .entryAged e order => Sys2Proof.Machine.execEntryAged e order s
  | .frameStart e order => Sys2Proof.Machine.execFrameStart e order s
  | .listeningCountEnd e order => Sys2Proof.Machine.execListeningCountEnd e order s
  | .faultHoldExpiry e order => Sys2Proof.Machine.execFaultHoldExpiry e order s
  | .outstandingExpiry e order => Sys2Proof.Machine.execOutstandingExpiry e order s
  | .holdoverEntry e order => Sys2Proof.Machine.execHoldoverEntry e order s
  | .holdoverExpiry e order => Sys2Proof.Machine.execHoldoverExpiry e order s
  | .lineStart e => Sys2Proof.Machine.execLineStart e s
  | .transferComplete e => Sys2Proof.Machine.execTransferComplete e s
  | .linkLossOfSignal e => Sys2Proof.Machine.execLinkLossOfSignal e s
  | .linkSignalPresent e => Sys2Proof.Machine.execLinkSignalPresent e s
  | .linkStartMarker e => Sys2Proof.Machine.execLinkStartMarker e s
  | .linkFill e => Sys2Proof.Machine.execLinkFill e s
  | .linkHdrBad e rest => Sys2Proof.Machine.execLinkHdrBad e rest s
  | .linkLengthBad e rest => Sys2Proof.Machine.execLinkLengthBad e rest s
  | .unknownKind e rest => Sys2Proof.Machine.execUnknownKind e rest s
  | .filler e rest => Sys2Proof.Machine.execFiller e rest s
  | .frameBegin e rest => Sys2Proof.Machine.execFrameBegin e rest s
  | .line e rest => Sys2Proof.Machine.execLine e rest s
  | .frameEnd e rest => Sys2Proof.Machine.execFrameEnd e rest s
  | .poll e rest => Sys2Proof.Machine.execPoll e rest s
  | .reportComplete e => Sys2Proof.Machine.execReportComplete e s
  | .clear e rest => Sys2Proof.Machine.execClear e rest s
  | .linkReset e rest => Sys2Proof.Machine.execLinkReset e rest s
  | .withdraw e rest => Sys2Proof.Machine.execWithdraw e rest s
  | .rejoin e rest => Sys2Proof.Machine.execRejoin e rest s
  | .linkHeaderTaken e rest => Sys2Proof.Machine.execLinkHeaderTaken e rest s
  | .skipLastByte e => Sys2Proof.Machine.execSkipLastByte e s

end Sys2Proof.Machine
end

