-- ==== Sys2Proof/Safety.lean ====
section
/-! DEFINITION. The terms that claims use: outcomes, frames, arrivals, and the laws that hold between steps. -/

namespace Sys2Proof

open Sys2Proof.Machine

/-! ### Outcomes -/

/-- A step that answers a next state answers one that meets `p`; a stop says nothing. -/
def NextMeets (p : State → Prop) (o : Host.Outcome State Fault Refusal) : Prop :=
  ∀ t, o = .next t → p t

/-- Every step keeps an invariant. -/
def StepKeeps (p : State → Prop) : Prop :=
  ∀ s, p s → NextMeets p (step s)

/-! ### Frames -/

/-- The parts of the state, the command queue apart. -/
inductive Part where
  | held
  | now
  | loader
  | timing
  | role
  | roster
  | presentation
  | slots
  | ringIn
  | ringOut
  | link
  | ingest
  | transfer
  | scan
  | report
  | notices
  | mem
  | draws
  deriving DecidableEq, Repr

/-- Two states agree on a part; on the memory, byte by byte. -/
def Part.same : Part → State → State → Prop
  | .held, s, t => s.held = t.held
  | .now, s, t => s.now = t.now
  | .loader, s, t => s.loader = t.loader
  | .timing, s, t => s.timing = t.timing
  | .role, s, t => s.role = t.role
  | .roster, s, t => s.roster = t.roster
  | .presentation, s, t => s.presentation = t.presentation
  | .slots, s, t => s.slots = t.slots
  | .ringIn, s, t => s.ringIn = t.ringIn
  | .ringOut, s, t => s.ringOut = t.ringOut
  | .link, s, t => s.link = t.link
  | .ingest, s, t => s.ingest = t.ingest
  | .transfer, s, t => s.transfer = t.transfer
  | .scan, s, t => s.scan = t.scan
  | .report, s, t => s.report = t.report
  | .notices, s, t => s.notices = t.notices
  | .mem, s, t => ∀ a, Memory.read s.mem a = Memory.read t.mem a
  | .draws, s, t => s.draws = t.draws

/-- From `s` to `t` nothing changes but the parts named; the command queue does not. -/
def Frame (changed : List Part) (s t : State) : Prop :=
  s.pending = t.pending ∧ ∀ p, p ∉ changed → p.same s t

/-! ### What stands at a receiver when a command comes -/

/-- The bytes given end a header in reception on the forward lane whose check passes, corrected or not, and gives `h`
(R135). -/
def LinkHeaderIn (e : Elapsed) (rest : List Byte) (fixed : Bool) (h : LinkHeader) (s : State) : Prop :=
  s.held = false ∧ ∃ p b, (s.elapse e).link.packet = some p ∧ p.header = none ∧ (p.taken ++ rest).length = 8 ∧
    checkHeader (p.taken ++ rest) = (if fixed then .corrected b else .good b) ∧ linkHeader b = h

/-- The state in which such a header is examined: what has passed is accounted for, a correction is counted. -/
def linkBase (e : Elapsed) (fixed : Bool) (s : State) : State :=
  if fixed then
    { s.elapse e with link := { (s.elapse e).link with hdrCorrected := bump (s.elapse e).link.hdrCorrected } }
  else s.elapse e

/-- The bytes given end a header in reception on RING IN whose check passes, corrected or not, and gives `h`; its start
marker came at `arrival` (R99). -/
def RingHeaderIn (e : Elapsed) (rest : List Byte) (fixed : Bool) (h : RingHeader) (arrival : Tick) (s : State) :
    Prop :=
  s.held = false ∧ ∃ p b, (s.elapse e).ringIn.packet = some p ∧ p.header = none ∧ (p.taken ++ rest).length = 8 ∧
    checkHeader (p.taken ++ rest) = (if fixed then .corrected b else .good b) ∧ ringHeader b = h ∧
    p.arrival = arrival

/-- The state in which such a header is examined. -/
def ringBase (e : Elapsed) (fixed : Bool) (s : State) : State :=
  if fixed then
    { s.elapse e with ringIn := { (s.elapse e).ringIn with hdrCorrected := bump (s.elapse e).ringIn.hdrCorrected } }
  else s.elapse e

/-- The bytes given end the payload and CRC `body` of the packet in reception on RING IN, whose header is `h`. -/
def RingBodyIn (e : Elapsed) (rest : List Byte) (h : RingHeader) (body : List Byte) (arrival : Tick) (s : State) :
    Prop :=
  s.held = false ∧ ∃ p, (s.elapse e).ringIn.packet = some p ∧ p.header = some h ∧ p.taken ++ rest = body ∧
    body.length = h.length.toNat + 2 ∧ p.arrival = arrival

/-- RING OUT takes the forwarded packet `p` at station time `now`, `rest` staying in the forward queue: Hops one lower,
and a BEAT's Delay raised by its residence and the segment delay, held at 65,535 (R119, R120). -/
def departing (now : Tick) (segment : Nat) (p : RingPacket) (rest : List RingPacket) (x : RingTransmitter) :
    RingTransmitter :=
  let sum := p.header.delay.toNat + (now - p.arrival).toNat + segment
  let isBeat := p.header.kind = 0x01#8
  { x with
    queue := rest,
    delayCapped :=
      if isBeat ∧ p.header.delay ≠ 65535#16 ∧ 65535 ≤ sum then bump x.delayCapped else x.delayCapped,
    sending := some
      { source := .forwarded p.header.size,
        bytes := protectHeader
            { p.header with
              hops := p.header.hops - 1,
              delay := if isBeat then BitVec.ofNat 16 (min 65535 sum) else p.header.delay }.bits ++
          p.body } }

/-- The state once a packet has been received whole (R105, R107, R118): it is counted, with TAINT set where its CRC
failed; behind a busy RING OUT it joins the tail of the forward queue, and an IDLE one takes the head of the queue. -/
def passed (h : RingHeader) (good : Bool) (body : List Byte) (arrival : Tick) (s : State) : State :=
  let whole : RingPacket := { header := { h with taint := h.taint || !good }, body := body, arrival := arrival }
  { s with
    ringIn :=
      { s.ringIn with
        state := .hunt, packet := none,
        taintedIn := if h.taint then bump s.ringIn.taintedIn else s.ringIn.taintedIn,
        crcFirst := if h.taint = false ∧ good = false then bump s.ringIn.crcFirst else s.ringIn.crcFirst,
        forwarded := bump s.ringIn.forwarded },
    ringOut :=
      match s.ringOut.sending, s.ringOut.queue ++ [whole] with
      | none, p :: rest => departing s.now s.segmentDelay p rest s.ringOut
      | _, queue => { s.ringOut with queue := queue } }

/-- A good packet of the own group and of kind `kind` ends on RING IN while the station has configuration `c` (R108). -/
def OwnGroupIn (e : Elapsed) (rest : List Byte) (kind : Byte) (h : RingHeader) (body : List Byte) (arrival : Tick)
    (c : Settings) (s : State) : Prop :=
  RingBodyIn e rest h body arrival s ∧ crcGood h.length.toNat body = true ∧ h.taint = false ∧ h.kind = kind ∧
    (s.elapse e).active = some c ∧ h.group = c.group

/-- The state in which a good packet is consumed: passed on and counted in CONSUMED. -/
def consumed (h : RingHeader) (body : List Byte) (arrival : Tick) (s : State) : State :=
  let s1 := passed h true body arrival s
  { s1 with ringIn := { s1.ringIn with consumed := bump s1.ringIn.consumed } }

/-- The Role Controller once it has accepted a BEAT (R65). -/
def beatTaken (h : RingHeader) (beat : Beat) (r : RoleUnit) : RoleUnit :=
  { r with
    current := some h.origin, beatsMissed := 0, beatsAccepted := bump r.beatsAccepted,
    lastBeat := some ⟨h.origin, beat.epoch, beat.decision, beat.participants, h.delay⟩ }

/-- The take-up of the decision of an accepted BEAT against the local epoch (R30). -/
def decisionTaken (role : Role) (localEpoch : Epoch) (beat : Beat) (p : Presentation) : Presentation :=
  if role = .standby then p
  else match beat.decision with
    | none => { p with decision := none }
    | some f =>
      if laterThan (beat.epoch + 1) localEpoch then { p with decision := some ⟨beat.epoch + 1, f⟩ }
      else { p with lateDecision := bump p.lateDecision }

/-- The state after a departure from ORIGIN to the role `r` (R67, R90, R116): HOLDOVER from now on, the waiting BEAT taken
back, YIELDS and HOLDOVER_ENTRIES counted, ROLE_CHANGED raised, and LOCK_CHANGED where the lock state changes.
`departedAt` is the model's own field (log 13). -/
def departed (r : Role) (s : State) : State :=
  { s with
    role := { s.role with role := r, yields := bump s.role.yields },
    timing :=
      { s.timing with
        lock := .holdover, holdover := 0, holdoverEntries := bump s.timing.holdoverEntries,
        departedAt := some s.now },
    ringOut :=
      { s.ringOut with
        beat := none,
        takenBack := if s.ringOut.beat.isSome then bump s.ringOut.takenBack else s.ringOut.takenBack },
    notices := s.notices ||| (if s.timing.lock = .holdover then 0x0002#16 else 0x0006#16) }

/-- The bytes given end the payload and CRC `body` of the LINE in reception on the forward lane, whose header is `h`
(R140). -/
def LineIn (e : Elapsed) (rest : List Byte) (h : LinkHeader) (body : List Byte) (s : State) : Prop :=
  s.held = false ∧ (s.elapse e).link.state = .payload ∧ ∃ p, (s.elapse e).link.packet = some p ∧
    p.header = some h ∧ p.taken ++ rest = body ∧ body.length = h.length.toNat + 2

/-- The Source Link Receiver once a packet has completed (R141). -/
def linkTaken (r : LinkReceiver) : LinkReceiver :=
  { r with state := .hunt, packet := none, packetsTaken := bump r.packetsTaken }

/-! ### Own packets on RING OUT -/

/-- RING OUT takes an own packet (R121, R122): it carries the sequence number, LOCAL_SENT rises, and its entry joins the
tail of the outstanding list. A list of 8 entries first makes room: the oldest is lost, LOST_OWN counts it, and the ring
state becomes BROKEN, with RING_CHANGED if it was not (R124 to R126). -/
def ownSent (c : Settings) (kind : OwnKind) (delay : BitVec 16) (payload : List Byte) (s : State) : State :=
  let x := s.ringOut
  let full : Bool := decide (8 ≤ x.outstanding.length)
  { s with
    ringOut :=
      { x with
        sending := some
          { source := .own kind,
            bytes := protectHeader
                { kind := match kind with
                    | .beat => 0x01
                    | .standing => 0x02
                    | .leave => 0x03,
                  group := c.group, origin := c.address, sequence := x.sequence, hops := 32, taint := false,
                  zeroHops := 0, length := BitVec.ofNat 6 payload.length, zeroLength := 0,
                  delay := delay : RingHeader }.bits ++
              payload ++ bytes16 (crc16 payload) },
        sequence := x.sequence + 1, localSent := bump x.localSent,
        outstanding :=
          (if full then x.outstanding.tail else x.outstanding) ++ [⟨x.sequence, kind, s.timing.frameCount⟩],
        lostOwn := if full then bump x.lostOwn else x.lostOwn, ring := if full then .broken else x.ring },
    notices := if full ∧ x.ring ≠ .broken then s.notices ||| 0x0008#16 else s.notices }

/-- A LEAVE waits in its place, and RING OUT makes its choice (R118): a busy one goes on, and an IDLE one takes the head
of the forward queue, or the LEAVE where no packet waits there. -/
def leaveOffered (c : Settings) (s : State) : State :=
  match s.ringOut.sending, s.ringOut.queue with
  | some _, _ => s
  | none, p :: rest => { s with ringOut := departing s.now s.segmentDelay p rest s.ringOut }
  | none, [] => ownSent c .leave 0 [0x01] { s with ringOut := { s.ringOut with leave := false } }

/-- Ticks since the last frame start (R123). -/
def sinceStart (s : State) : Nat :=
  match s.timing.timer with
  | some t => (s.now - t.last).toNat
  | none => 0

/-- What the own entry says (R44): the live state of the blocks that own its items. -/
def ownSaid (c : Settings) (s : State) : Standing :=
  { capable := c.capable, role := s.role.role, lock := s.timing.lock, ring := s.ringOut.ring,
    conflict := decide (0 < s.roster.conflictHold), mismatch := decide (0 < s.roster.mismatchHold),
    shown := s.presentation.shown, epoch := s.timing.epoch, list := s.slots.complete }

/-! ### What leaves at a frame start, `b` being the state before it and `t` the one after -/

/-- The BEAT that an ORIGIN composes (R26, R27): for the new epoch, with the decision and the participants that the
presentation step and the roster leave. -/
def beatAtFrameStart (c : Settings) (b t : State) : Beat :=
  { epoch := b.timing.epoch + 1, decision := t.decisionOf c, period := BitVec.ofNat 24 (c.lineTicks * (c.vb + c.h)),
    participants := BitVec.ofNat 8 (1 + t.roster.entries.countP fun x =>
      x.member && (x.said.lock == .locked || x.said.lock == .holdover)) }

/-- What a STANDING says that begins at the frame start (R44, R47). The role and the lock state are those that the frame
start settles, and the epoch is the new one. The count-down of the fault holds, the presentation and the expiry of the
outstanding list are carried where they are taken before the STANDING offer, and not otherwise. -/
def saidAtFrameStart (c : Settings) (order : FrameOrder) (b t : State) : Standing :=
  let carried (p : FramePart) : Bool := FramePart.before order.taken p .offer
  let counted : Nat := if carried .holds = true then 1 else 0
  let expires : Bool := b.ringOut.outstanding.any fun o => decide (2 ≤ (b.timing.frameCount + 1 - o.departed).toNat)
  { capable := c.capable, role := t.role.role, lock := t.timing.lock,
    ring := if carried .expire = true ∧ expires = true then .broken else b.ringOut.ring,
    conflict := decide (counted < b.roster.conflictHold), mismatch := decide (counted < b.roster.mismatchHold),
    shown := if carried .present = true then t.presentation.shown else b.presentation.shown,
    epoch := b.timing.epoch + 1,
    list := if carried .present = true then t.slots.complete else b.slots.complete }

/-! ### The frame in progress -/

/-- DAMAGED is set on slot `i` (R4). -/
def damagedAt (i : Nat) (m : SlotManager) : SlotManager :=
  { m with table := m.table.modify i fun r => { r with damaged := true } }

/-- The Frame Assembler in NO_FRAME, whatever was in hand being left (R145). -/
def frameLeft (u : Assembler) : Assembler :=
  { u with state := .noFrame, frame := none, slot := none, accounted := [], openLine := none, buffer := [] }

/-- An abandoned record: DRAINING while a write of it is in progress, otherwise FREE (R11). -/
def abandonedRecord (writing : Bool) (r : Slot) : Slot :=
  if writing = true then { r with state := .draining, pending := 1 } else ⟨.free, none, [], 0, false⟩

/-- The state in which a frame in progress in slot `i` has been ended early (R146, R157): the slot is abandoned, its
queued writes are gone, ABANDONED_FRAME has counted and INGEST_ERROR is raised. -/
def endedAt (i : Nat) (s : State) : State :=
  { s with
    ingest :=
      { frameLeft s.ingest with
        queue := s.ingest.queue.filter (fun w => w.slot != i), abandonedFrame := bump s.ingest.abandonedFrame },
    slots := { s.slots with table := s.slots.table.modify i (abandonedRecord (s.writing i)) },
    notices := s.notices ||| 0x0040#16 }

/-- The same, whether or not a frame is in progress. -/
def endedEarly (s : State) : State :=
  match s.ingest.state, s.ingest.slot with
  | .inFrame, some i => endedAt i s
  | _, _ => s

/-- The state in which a segment of line `line` is placed in slot `i`: an open line of another number has been abandoned
(R152). -/
def placedAt (i line : Nat) (s : State) : State :=
  match s.ingest.openLine with
  | none => s
  | some o =>
    if o.line = line then s
    else
      { s with
        ingest :=
          { s.ingest with openLine := none, buffer := [], lineAbandoned := bump s.ingest.lineAbandoned },
        slots := damagedAt i s.slots, notices := s.notices ||| 0x0040#16 }

/-- Frame `f`, COMPLETE in slot `k`, is the oldest that is not pinned: the head of the complete list, or the second when
the head is pinned (R6). -/
def OldestUnpinned (pin : Option FrameNo) (m : SlotManager) (f : FrameNo) (k : Nat) : Prop :=
  pin ≠ some f ∧ (m.complete.head? = some f ∨ (m.complete.head? = pin ∧ m.complete[1]? = some f)) ∧
    (∃ r, m.table[k]? = some r ∧ r.state = .complete ∧ r.frame = some f) ∧
    ∀ (j : Nat) (q : Slot), j < k → m.table[j]? = some q → ¬ (q.state = .complete ∧ q.frame = some f)

/-- Frame `f` has been evicted from slot `k` (R7, R13). -/
def evictedAt (f : FrameNo) (k : Nat) (m : SlotManager) : SlotManager :=
  { m with
    table := m.table.set k ⟨.free, none, [], 0, false⟩, complete := m.complete.erase f, evicted := bump m.evicted }

/-- The frame memory has been granted among what waits for it, `slot` being the scan slot (R162): a transfer in progress
goes on; otherwise the oldest waiting fetch is granted, otherwise the head of the write queue. -/
def Granted (slot : Option Nat) (transfer : Option Transfer) (records : List FetchRecord) (queue : List LineWrite)
    (t : State) : Prop :=
  (transfer ≠ none → t.transfer = transfer ∧ t.scan.records = records ∧ t.ingest.queue = queue) ∧
  (∀ (before after : List FetchRecord) (r : FetchRecord) (i : Nat), transfer = none →
    records = before ++ r :: after → (∀ x ∈ before, x.inProgress = true) → r.inProgress = false → slot = some i →
    t.transfer = some (.fetch i r.line) ∧ t.scan.records = before ++ { r with inProgress := true } :: after ∧
      t.ingest.queue = queue) ∧
  (transfer = none → (slot = none ∨ ∀ x ∈ records, x.inProgress = true) →
    t.scan.records = records ∧
    (∀ w rest, queue = w :: rest → t.transfer = some (.write w) ∧ t.ingest.queue = rest) ∧
    (queue = [] → t.transfer = none ∧ t.ingest.queue = []))

/-- The frame timer runs under configuration `c`, and the next frame start is not behind station time. -/
def TimerRuns (e : Elapsed) (c : Settings) (timer : FrameTimer) (s : State) : Prop :=
  s.held = false ∧ (s.elapse e).loader.settled = some c ∧ (s.elapse e).timing.timer = some timer ∧
    ticksFrom (s.elapse e).now timer.next < 2147483648

/-! ### Laws of the state -/

/-- The law of R58: while the role is ORIGIN the lock state is REFERENCE and the roster holds no capable MEMBER at a
lower address. -/
def OriginLaw (s : State) : Prop :=
  ∀ c, s.loader.settled = some c → s.role.role = .origin →
    s.timing.lock = .reference ∧
      ∀ x ∈ s.roster.entries, x.member = true → x.said.capable = true → c.address.toNat ≤ x.address.toNat

/-- The laws of R42: the own entry exactly while RUNNING; the entries of other stations by ascending address, none at 31
and none at the own address (log 27), which is not 31 either (R183, R184); at most 31 entries in all; and none before
RUNNING. -/
def RosterLaw (s : State) : Prop :=
  (∀ c, s.loader.settled = some c → c.address ≠ 31) ∧
  (s.roster.ownPresent = true ↔ s.loader.station = .running) ∧
    s.roster.entries.Pairwise (fun x y => x.address.toNat < y.address.toNat) ∧
    (∀ x ∈ s.roster.entries, x.address ≠ 31) ∧
    (∀ c, s.active = some c → ∀ x ∈ s.roster.entries, x.address ≠ c.address) ∧
    s.roster.entries.length + (if s.roster.ownPresent then 1 else 0) ≤ 31 ∧
    (s.active = none → s.roster.entries = [])

/-- What the occupancy counts (R113). -/
def occupied (s : State) : Nat :=
  (s.ringOut.queue.map fun p => p.header.size).sum +
  (match s.ringOut.sending with
    | some x =>
      match x.source with
      | .forwarded size => size
      | .own _ => 0
    | none => 0) +
  s.ringIn.reservation

/-- The law of the forward queue (R113): the occupancy is what it counts, at most 160; a packet whose header has been
accepted holds its reservation. -/
def OccupancyLaw (s : State) : Prop :=
  s.ringOut.occupancy = occupied s ∧ s.ringOut.occupancy ≤ 160 ∧
    ∀ p, s.ringIn.packet = some p → p.header.isSome = true → p.reserved = true

/-- Before RUNNING (R110, R128, R181, R186): without a settled configuration in force every block but the receivers,
the forward queue and the Report Unit has its reset values, and no notice but LINK_ERROR and POLL_OVERRUN is held. -/
def QuietLaw (s : State) : Prop :=
  s.active = none →
    s.loader.settled = none ∧ s.timing = .reset ∧ s.role = .reset ∧ s.roster = .reset ∧ s.presentation = .reset ∧
    s.slots = .reset ∧ s.ingest = .reset ∧ s.transfer = none ∧ s.scan = .reset ∧ s.ringOut.leave = false ∧
    s.ringOut.beat = none ∧ s.ringOut.standing = false ∧ s.ringOut.outstanding = [] ∧ s.ringOut.sequence = 0 ∧
    s.ringOut.ring = .unknown ∧ s.notices &&& 0xFEDF#16 = 0

/-- The law of what is IDLE: behind an IDLE RING OUT nothing waits (R118), and behind an idle frame memory no line write
(R162). -/
def IdleLaw (s : State) : Prop :=
  (s.ringOut.sending = none →
    s.ringOut.queue = [] ∧ s.ringOut.leave = false ∧ s.ringOut.beat = none ∧ s.ringOut.standing = false) ∧
  (s.transfer = none → s.ingest.queue = [])

/-- A slot that holds its frame in the sense of R16. -/
def holdsFrame (r : Slot) : Prop :=
  r.state = .filling ∨ r.state = .closing ∨ r.state = .complete ∨ r.state = .shown

/-- A slot that still receives its frame. -/
def receivesFrame (r : Slot) : Prop :=
  r.state = .filling ∨ r.state = .closing

/-- Slot record `q` has a frame later than that of `r`. -/
def laterFrame (q r : Slot) : Prop :=
  ∃ f g, r.frame = some f ∧ q.frame = some g ∧ laterThan g f = true

/-- The laws of the slot table (R2, R5, R16, R20, R145). -/
def SlotLaw (s : State) : Prop :=
  (∀ (i : Nat) (r : Slot), s.slots.table[i]? = some r → (r.state = .free ↔ r.frame = none)) ∧
  (∀ (i j : Nat) (r q : Slot), i ≠ j → s.slots.table[i]? = some r → s.slots.table[j]? = some q →
    holdsFrame r → holdsFrame q → r.frame ≠ q.frame) ∧
  s.slots.complete.Nodup ∧
  (∀ f, f ∈ s.slots.complete ↔ ∃ (i : Nat) (r : Slot), s.slots.table[i]? = some r ∧ r.state = .complete ∧
    r.frame = some f) ∧
  (∀ (i : Nat) (r : Slot), s.slots.table[i]? = some r → r.state = .shown → r.frame = s.presentation.shown) ∧
  (∀ (i : Nat) (r : Slot), s.slots.table[i]? = some r → (r.state = .filling ↔ s.ingest.slot = some i)) ∧
  (∀ i, s.ingest.slot = some i → i < s.slots.table.length) ∧
  (s.ingest.slot.isSome = true ↔ s.ingest.state = .inFrame) ∧
  s.slots.complete.Pairwise (fun f g => laterThan g f = true) ∧
  s.slots.complete.length ≤ 3 ∧
  (∀ c, s.loader.settled = some c → s.slots.complete.length ≤ c.slotCount - 1) ∧
  (∀ f, s.presentation.shown = some f → ∀ r ∈ s.slots.table, receivesFrame r ∨ r.state = .complete →
    ∃ g, r.frame = some g ∧ laterThan g f = true) ∧
  (∀ r ∈ s.slots.table, ∀ q ∈ s.slots.table,
    (r.state = .complete → receivesFrame q → laterFrame q r) ∧
    (r.state = .closing → q.state = .filling → laterFrame q r))

/-- The line writes that hold a place, in the order in which they complete: the one in progress, then those queued
(R154). -/
def writesHeld (s : State) : List LineWrite :=
  (match s.transfer with
    | some (.write w) => [w]
    | some (.fetch _ _) => []
    | none => []) ++
  s.ingest.queue

/-- The laws of the line writes (R3, R10, R12, R154), by which frames complete in the order in which they began (R16):
PENDING counts a slot's writes; the writes stand in the order of their frames; an accounted line is written or has its
write; and a slot that has a line written has no write of an earlier frame before its own. -/
def WriteLaw (s : State) : Prop :=
  (∀ c, s.loader.settled = some c →
    1 ≤ c.h ∧ 3 ≤ c.slotCount ∧ c.slotCount ≤ 4 ∧ s.slots.table.length = c.slotCount) ∧
  (∀ (i : Nat) (r : Slot), s.slots.table[i]? = some r → receivesFrame r →
    r.pending = (writesHeld s).countP (fun w => w.slot == i) ∧ (r.state = .closing → 0 < r.pending)) ∧
  (∀ w ∈ s.ingest.queue, ∃ r, s.slots.table[w.slot]? = some r ∧ receivesFrame r) ∧
  (∀ w, s.transfer = some (.write w) →
    ∃ r, s.slots.table[w.slot]? = some r ∧ (receivesFrame r ∨ r.state = .draining)) ∧
  (writesHeld s).Pairwise (fun v w => ∀ r q, v.slot ≠ w.slot → s.slots.table[v.slot]? = some r →
    s.slots.table[w.slot]? = some q → receivesFrame r → receivesFrame q → laterFrame q r) ∧
  (∀ (i : Nat) (r : Slot), s.ingest.slot = some i → s.slots.table[i]? = some r → ∀ l ∈ s.ingest.accounted,
    l ∈ r.written ∨ ∃ w ∈ writesHeld s, w.slot = i ∧ w.line = l) ∧
  (∀ (i : Nat) (r : Slot), s.slots.table[i]? = some r → receivesFrame r → r.written ≠ [] →
    ∀ w ∈ writesHeld s, w.slot ≠ i → ∀ q, s.slots.table[w.slot]? = some q → receivesFrame q → laterFrame q r)

/-! ### Reports (13.6) -/

/-- A number in `n` bytes, the most significant one first. -/
def numberBytes (n v : Nat) : List Byte :=
  (List.range n).map fun i => BitVec.ofNat 8 (v / 256 ^ (n - 1 - i))

/-- A value of a list, coded by its position in the list, counted from 0. -/
def position {α : Type} [DecidableEq α] (values : List α) (x : α) : Nat := values.idxOf x

/-- An optional item whose size is `n`: a presence byte, then the item, sent as zero when absent. -/
def optionalBytes (n : Nat) : Option (List Byte) → List Byte
  | some bs => 1 :: bs
  | none => List.replicate (n + 1) 0

/-- A run of counters is one field per counter. -/
def counts (cs : List Counter) : List (List Byte) := cs.map fun x => numberBytes 2 x.toNat

def rolePosition (r : Role) : Nat := position [.listening, .follower, .origin, .standby] r

def lockPosition (l : Lock) : Nat := position [.free, .acquiring, .locked, .holdover, .reference] l

def ringPosition (r : RingState) : Nat := position [.unknown, .intact, .broken] r

/-- The fault cause and the failing field, its row in the table of R183 or 0. -/
def causeBytes : FaultCause → List (List Byte)
  | .imageCrc => [[0], [0]]
  | .formatCode => [[1], [0]]
  | .fieldRange f =>
    [[2],
      numberBytes 1
        (1 + position
          [.formatCode, .address, .group, .capable, .policy, .format, .slotCount, .lineTicks, .vb, .h, .w, .lockWindow,
            .slewLimit, .segmentDelay, .background] f)]
  | .unusedNonzero => [[3], [0]]
  | .periodRange => [[4], [0]]

/-- IDENT: the identification code, the revision, the station state; in RUNNING and WITHDRAWN the configuration as image
bytes 0 to 21 (log 24) and T; in CONFIG_FAULT the cause and the image as read (R189). -/
def identItems (s : State) : List (List Byte) :=
  [numberBytes 2 0x0641, [1],
    numberBytes 1 (position [.configuring, .configFault, .running, .withdrawn] s.loader.station)] ++
  match s.loader.station, s.loader.settled, s.loader.cause with
  | .configFault, _, some x => causeBytes x ++ [s.loader.image]
  | .running, some c, _ => [c.image.take 22, numberBytes 3 (c.lineTicks * (c.vb + c.h))]
  | .withdrawn, some c, _ => [c.image.take 22, numberBytes 3 (c.lineTicks * (c.vb + c.h))]
  | _, _, _ => []

/-- LINK: the receive state, the counters of R144, the POLLs waiting, the Report Unit's counters. -/
def linkItems (s : State) : List (List Byte) :=
  let r := s.link
  [numberBytes 1 (position [.down, .hunt, .header, .payload, .skip] r.state)] ++
  counts
    [r.hdrCorrected, r.hdrBad, r.lengthBad, r.unknownKind, r.crcBad, r.truncated, r.signalLost, r.packetsTaken,
      r.notConfigured] ++
  [numberBytes 1 s.report.queue.length] ++ counts [s.report.pollBad, s.report.pollDropped, s.report.reportsSent]

/-- The transfer in progress: KIND, SLOT and LINE. -/
def transferBytes : Transfer → List Byte
  | .write w => [0] ++ numberBytes 1 w.slot ++ numberBytes 2 w.line
  | .fetch slot line => [1] ++ numberBytes 1 slot ++ numberBytes 2 line

/-- INGEST: the Frame Assembler's state and counters, FRAMES_COMPLETED and EVICTED, the transfer in progress. -/
def ingestItems (s : State) : List (List Byte) :=
  let u := s.ingest
  [numberBytes 1 (position [.noFrame, .inFrame, .discarding] u.state),
    optionalBytes 2 (u.frame.map fun f => numberBytes 2 f.toNat),
    optionalBytes 1 (u.slot.map fun i => numberBytes 1 i), numberBytes 2 u.accounted.length,
    optionalBytes 4 (u.openLine.map fun o => numberBytes 2 o.line ++ numberBytes 2 o.next),
    numberBytes 1 (writesHeld s).length] ++
  counts
    [u.framesBegun, u.linesQueued, u.orphanLine, u.rangeError, u.formatError, u.orderError, u.lineAbandoned,
      u.duplicateLine, u.queueFullDrop, u.staleFrame, u.noSlotDrop, u.abandonedFrame, u.frameMismatch,
      u.incompleteFrame, s.slots.framesCompleted, s.slots.evicted] ++
  [optionalBytes 4 (s.transfer.map transferBytes)]

/-- The entry of slot `i` in a SLOTS report, 6 bytes; an absent FRAME is sent as 0 (log 30). -/
def slotItem (i : Nat) (r : Slot) : List Byte :=
  numberBytes 1 i ++
  numberBytes 1
    (position [.free, .filling, .closing, .complete, .shown, .draining] r.state + 8 * r.damaged.toNat +
      16 * r.frame.isSome.toNat) ++
  numberBytes 2 (r.frame.getD 0).toNat ++ numberBytes 2 (r.written.length % 2048 + 2048 * (r.pending % 8))

/-- The entries of a SLOTS report, each with its INDEX. -/
def slotItems (s : State) : List (Nat × List Byte) := s.slots.table.zipIdx.map fun x => (x.2, slotItem x.2 x.1)

/-- An entry of a ROSTER report, 10 + 2n bytes; an absent SHOWN is sent as 0 (log 30). -/
def entryItem (x : Entry) : List Byte :=
  numberBytes 1 x.address.toNat ++
  numberBytes 1
    (x.member.toNat + 2 * x.said.capable.toNat + 4 * rolePosition x.said.role + 16 * lockPosition x.said.lock) ++
  numberBytes 1
    (ringPosition x.said.ring + 4 * x.said.conflict.toNat + 8 * x.said.mismatch.toNat +
      16 * x.said.shown.isSome.toNat) ++
  numberBytes 2 (x.said.shown.getD 0).toNat ++ numberBytes 2 x.said.epoch.toNat ++ [x.lastSequence] ++
  numberBytes 1 x.silence ++ numberBytes 1 x.said.list.length ++
  x.said.list.flatMap fun f => numberBytes 2 f.toNat

/-- The entries of a ROSTER report, each with its address: those below the own address, the own one while RUNNING, and
those above (R44, R57). -/
def entryItems (s : State) : List (Nat × List Byte) :=
  let es := s.roster.entries
  let listed : List Entry :=
    match s.loader.settled, s.roster.ownPresent with
    | some c, true =>
      es.filter (fun x => decide (x.address.toNat < c.address.toNat)) ++
        [⟨c.address, true, ownSaid c s, 0, s.roster.ownSequence⟩] ++
        es.filter (fun x => decide (c.address.toNat < x.address.toNat))
    | _, _ => es
  listed.map fun x => (x.address.toNat, entryItem x)

/-- An optional address, 0xFF for none. -/
def addressOrNone : Option Address → List Byte
  | some a => numberBytes 1 a.toNat
  | none => [0xFF]

/-- The fixed fields of a ROSTER report: the Last LEAVE, address and reason, 0 where there is none (log 30), and the
counters of R57. -/
def rosterItems (s : State) : List (List Byte) :=
  let r := s.roster
  [addressOrNone (r.lastLeave.map LastLeave.address) ++ [(r.lastLeave.map LastLeave.reason).getD 0]] ++
  counts [r.standingsTaken, r.duplicateStanding, r.rosterRefused, r.entriesAged, r.leavesTaken]

/-- The Last BEAT record. -/
def lastBeatBytes (b : LastBeat) : List Byte :=
  numberBytes 1 b.origin.toNat ++ numberBytes 2 b.epoch.toNat ++
    optionalBytes 2 (b.decision.map fun f => numberBytes 2 f.toNat) ++ [b.participants] ++ numberBytes 2 b.delay.toNat

/-- The Last estimate record, its signed items in two's complement. -/
def estimateBytes (x : Estimate) : List Byte :=
  numberBytes 2 x.beatEpoch.toNat ++ numberBytes 4 (x.phaseError % 4294967296).toNat ++
    numberBytes 1 (position [.lock, .trim, .slip, .jump] x.action) ++
    numberBytes 4 (x.correction % 4294967296).toNat

/-- TIMING: the Role Controller's state, Last BEAT and counters, the Timing Unit's state, Last estimate and counters. -/
def timingItems (s : State) : List (List Byte) :=
  let r := s.role
  let u := s.timing
  [numberBytes 1 (rolePosition r.role), addressOrNone r.current, numberBytes 1 r.beatsMissed,
    numberBytes 1 r.listening, optionalBytes 9 (r.lastBeat.map lastBeatBytes)] ++
  counts [r.beatsAccepted, r.ignoredBeats, r.dueling, r.periodMismatch, r.claims, r.yields] ++
  [numberBytes 1 (lockPosition u.lock), numberBytes 2 u.epoch.toNat, numberBytes 2 u.frameCount.toNat,
    numberBytes 1 u.timedMissed, numberBytes 1 u.slip, numberBytes 1 u.holdover,
    optionalBytes 11 (u.estimate.map estimateBytes)] ++
  counts [u.jumps, u.slips, u.epochStep, u.holdoverEntries, u.saturatedDelay]

/-- PRESENT: the shown frame, the pending decision, the complete list, the counters of R41 with SKIPPED, the scan slot and
the counters of R171. -/
def presentItems (s : State) : List (List Byte) :=
  let p := s.presentation
  [optionalBytes 2 (p.shown.map fun f => numberBytes 2 f.toNat),
    optionalBytes 4 (p.decision.map fun d => numberBytes 2 d.target.toNat ++ numberBytes 2 d.frame.toNat),
    numberBytes 1 s.slots.complete.length ++ s.slots.complete.flatMap fun f => numberBytes 2 f.toNat] ++
  counts [p.presented, p.repeated, p.missed, p.staleDecision, p.lateDecision, p.decisionsMade, s.slots.skipped] ++
  [optionalBytes 1 (s.scan.slot.map fun i => numberBytes 1 i)] ++
  counts [s.scan.underrun, s.scan.cutFrames, s.scan.fetches, s.scan.staleFetch]

/-- The packet in reception: BYTES and RESERVED. -/
def receptionBytes (p : RingRxPacket) : List Byte :=
  numberBytes 1 ((if p.header.isSome then 8 else 0) + p.taken.length) ++ numberBytes 1 p.reserved.toNat

/-- RING OUT: IDLE, sending forwarded, or sending local. -/
def outState : Option SendSource → Nat
  | none => 0
  | some (.forwarded _) => 1
  | some (.own _) => 2

/-- An entry of the outstanding list: SEQUENCE, KIND by its ring kind code, and DEPARTED. -/
def outstandingBytes (o : Outstanding) : List Byte :=
  [o.sequence] ++ numberBytes 1 (1 + position [.beat, .standing, .leave] o.kind) ++ numberBytes 2 o.departed.toNat

/-- RING: the Ring Receiver's state, packet in reception and counters, the Ring Transmitter's state, outstanding list and
counters. -/
def ringItems (s : State) : List (List Byte) :=
  let r := s.ringIn
  let t := s.ringOut
  [numberBytes 1 (position [.down, .hunt, .header, .payload] r.state),
    optionalBytes 2 (r.packet.map receptionBytes)] ++
  counts
    [r.hdrCorrected, r.hdrBad, r.lengthBad, r.stripped, r.orphan, r.forwardOverflow, r.crcFirst, r.taintedIn,
      r.truncated, r.signalLost, r.forwarded, r.consumed, r.beatRefused] ++
  [numberBytes 1 t.occupancy, numberBytes 1 t.queue.length,
    numberBytes 1 (outState (t.sending.map Sending.source)),
    numberBytes 1 (t.leave.toNat + 2 * t.beat.isSome.toNat + 4 * t.standing.toNat), [t.sequence],
    numberBytes 1 (ringPosition t.ring), numberBytes 1 t.outstanding.length] ++
  t.outstanding.map outstandingBytes ++
  counts
    [t.localSent, t.beatReplaced, t.standingReplaced, t.takenBack, t.lostOwn, t.addressConflict, t.delayCapped]

/-- A report of a kind without entries (R174): after the notice set the longest leading run of whole fields that fits,
TRUNCATED where a field is left out, and no next index. -/
def CutAtFields (max : Nat) (notices : BitVec 16) (fields : List (List Byte)) (r : Report) : Prop :=
  ∃ n, n ≤ fields.length ∧ r.payload = bytes16 notices ++ (fields.take n).flatten ∧ r.payload.length ≤ max ∧
    r.nextIndex = none ∧ (r.truncated = true ↔ n < fields.length) ∧
    ∀ f, fields[n]? = some f → max < r.payload.length + f.length

/-- A report of SLOTS or ROSTER (R176): the fixed fields, then from the start index the longest run of whole entries that
fits, with TRUNCATED and the next index where an entry is left out. -/
def CutAtEntries (start : Byte) (max : Nat) (notices : BitVec 16) (fixed : List Byte)
    (entries : List (Nat × List Byte)) (r : Report) : Prop :=
  let asked := entries.filter fun x => decide (start.toNat ≤ x.1)
  ∃ n, n ≤ asked.length ∧ r.payload = bytes16 notices ++ fixed ++ ((asked.take n).map Prod.snd).flatten ∧
    r.payload.length ≤ max ∧ (r.truncated = true ↔ n < asked.length) ∧ (n = asked.length → r.nextIndex = none) ∧
    ∀ x, asked[n]? = some x → max < r.payload.length + x.2.length ∧
      r.nextIndex = some (if n = 0 then start else BitVec.ofNat 8 x.1)

/-- `r` is the report that begins in `s` for the POLL `p` (R173 to R176, R181, R189). In CONFIG_FAULT a report of a kind
other than IDENT and LINK is the notice set alone, with UNAVAILABLE; every other report carries the live state of its
kind, cut to the max return. -/
def ReportFor (p : Poll) (s : State) (r : Report) : Prop :=
  let only : Prop := s.loader.station = .configFault ∧ p.kind ≠ .ident ∧ p.kind ≠ .link
  r.kind = p.kind ∧ (r.unavailable = true ↔ only) ∧
  (only → r.truncated = false ∧ r.nextIndex = none ∧ r.payload = numberBytes 2 s.notices.toNat) ∧
  (¬ only → 16 ≤ p.max →
    match p.kind with
    | .ident => CutAtFields p.max s.notices (identItems s) r
    | .link => CutAtFields p.max s.notices (linkItems s) r
    | .ingest => CutAtFields p.max s.notices (ingestItems s) r
    | .slots => CutAtEntries p.start p.max s.notices (numberBytes 1 s.slots.table.length) (slotItems s) r
    | .roster => RosterLaw s → CutAtEntries p.start p.max s.notices (rosterItems s).flatten (entryItems s) r
    | .timing => CutAtFields p.max s.notices (timingItems s) r
    | .present => CutAtFields p.max s.notices (presentItems s) r
    | .ring => CutAtFields p.max s.notices (ringItems s) r)

end Sys2Proof
end

