-- ==== Sys2Proof/Certificates/Slice0/Obligations.lean ====
section
/-! DEFINITION. The statements for the provers. -/

open Sys2Proof Sys2Proof.Machine

/-! ### The queue, reset, the image -/

/-- A step takes the command at the front of the queue and executes it on the state with the queue's rest. -/
def Obligations.StepRunsTheFrontCommand : Prop :=
  ∀ (i : Instr) (rest : List Instr) (s : State), step (s.setPending (i :: rest)) = exec i (s.setPending rest)

/-- Between two commands only station time goes on, and only bytes of a packet or of the image that complete nothing are
taken. Station time goes on by the ticks given, up to the next frame start (R74, R77). Where a header, a payload or the
image is being received, the bytes that it can take without being complete join those it has, and in a skip they are
counted off; everything else stays: the receivers' states, headers, reservations and counters, and an image that is no
longer being read (R186). What was incomplete stays so. The form is the model's (logs 1 and 3). -/
def Obligations.PassingTimeChangesOnly : Prop :=
  ∀ (e : Elapsed) (s : State),
    let t := s.elapse e
    Frame [.now, .ringIn, .link, .loader] s t ∧
    (s.timing.timer = none → t.now = s.now + e.ticks) ∧
    (∀ timer, s.timing.timer = some timer →
      let left := (timer.next - s.now).toNat
      (left < 2147483648 → t.now = if e.ticks.toNat ≤ left then s.now + e.ticks else timer.next) ∧
      (2147483648 ≤ left → t.now = s.now)) ∧
    t.ringIn = { s.ringIn with packet := t.ringIn.packet } ∧ (s.ringIn.packet = none → t.ringIn.packet = none) ∧
    (∀ p, s.ringIn.packet = some p →
      let limit :=
        match p.header with
        | none => 7
        | some h => h.length.toNat + 1
      t.ringIn.packet = some { p with taken := p.taken ++ e.ringIn.take (limit - p.taken.length) } ∧
      (p.taken.length ≤ limit → (p.taken ++ e.ringIn.take (limit - p.taken.length)).length ≤ limit)) ∧
    t.link = { s.link with packet := t.link.packet } ∧ (s.link.packet = none → t.link.packet = none) ∧
    (∀ p, s.link.packet = some p →
      (p.header = none →
        t.link.packet = some { p with taken := p.taken ++ e.linkIn.take (7 - p.taken.length) } ∧
        (p.taken.length ≤ 7 → (p.taken ++ e.linkIn.take (7 - p.taken.length)).length ≤ 7)) ∧
      (∀ h, p.header = some h →
        let n := min e.linkIn.length (p.remaining - 1)
        t.link.packet = some
          { p with
            taken := if s.link.state = .payload then p.taken ++ e.linkIn.take n else p.taken,
            remaining := p.remaining - n } ∧
        (1 ≤ p.remaining → 1 ≤ p.remaining - n))) ∧
    t.loader =
      { s.loader with
        image :=
          if s.loader.station = .configuring then
            s.loader.image ++ e.imageIn.take (23 - s.loader.image.length)
          else s.loader.image } ∧
    (s.loader.station = .configuring → s.loader.image.length < 24 → t.loader.image.length < 24)

/-- The values that device reset leaves, block by block, in the state right after it: no field and no counter is left
out. That nothing is listed in frame memory is log 10's choice, since no reset clears frame memory (R17, R161); `held`,
`draws` and `departedAt` are the model's own (logs 8, 11 and 13), and the forward lane starts without signal (log 9).
No notice is held, so ATTN_N is released, and the configuration read is under way on its port (R183). -/
def Obligations.ResetValues : Prop :=
  State.reset.pending = [] ∧ State.reset.held = false ∧ State.reset.now = 0 ∧ State.reset.draws = 0 ∧
  State.reset.mem = [] ∧ State.reset.notices = 0 ∧ State.reset.attnLow = false ∧
  State.reset.configPort = ⟨true, true, [0x03, 0, 0, 0]⟩ ∧
  State.reset.loader = { station := .configuring, image := [], settled := none, cause := none } ∧
  State.reset.timing =
    { timer := none, epoch := 0, frameCount := 0, lock := .free, timedMissed := 0, slip := 0, holdover := 0,
      departedAt := none, estimate := none, jumps := 0, slips := 0, epochStep := 0, holdoverEntries := 0,
      saturatedDelay := 0 } ∧
  State.reset.role =
    { role := .listening, current := none, beatsMissed := 0, listening := 0, lastBeat := none, beatsAccepted := 0,
      ignoredBeats := 0, dueling := 0, periodMismatch := 0, claims := 0, yields := 0 } ∧
  State.reset.roster =
    { entries := [], ownPresent := false, ownSequence := 0, conflictHold := 0, mismatchHold := 0, lastLeave := none,
      standingsTaken := 0, duplicateStanding := 0, rosterRefused := 0, entriesAged := 0, leavesTaken := 0 } ∧
  State.reset.presentation =
    { shown := none, decision := none, presented := 0, repeated := 0, missed := 0, staleDecision := 0,
      lateDecision := 0, decisionsMade := 0 } ∧
  State.reset.slots = { table := [], complete := [], framesCompleted := 0, evicted := 0, skipped := 0 } ∧
  State.reset.ringIn =
    { state := .down, packet := none, hdrCorrected := 0, hdrBad := 0, lengthBad := 0, stripped := 0, orphan := 0,
      forwardOverflow := 0, crcFirst := 0, taintedIn := 0, truncated := 0, signalLost := 0, forwarded := 0,
      consumed := 0, beatRefused := 0 } ∧
  State.reset.ringOut =
    { queue := [], occupancy := 0, leave := false, beat := none, standing := false, sending := none, sequence := 0,
      outstanding := [], ring := .unknown, localSent := 0, beatReplaced := 0, standingReplaced := 0, takenBack := 0,
      lostOwn := 0, addressConflict := 0, delayCapped := 0 } ∧
  State.reset.link =
    { state := .down, signal := false, packet := none, hdrCorrected := 0, hdrBad := 0, lengthBad := 0,
      unknownKind := 0, crcBad := 0, truncated := 0, signalLost := 0, packetsTaken := 0, notConfigured := 0 } ∧
  State.reset.ingest =
    { state := .noFrame, frame := none, slot := none, accounted := [], openLine := none, buffer := [], queue := [],
      framesBegun := 0, linesQueued := 0, orphanLine := 0, rangeError := 0, formatError := 0, orderError := 0,
      lineAbandoned := 0, duplicateLine := 0, queueFullDrop := 0, staleFrame := 0, noSlotDrop := 0,
      abandonedFrame := 0, frameMismatch := 0, incompleteFrame := 0 } ∧
  State.reset.transfer = none ∧
  State.reset.scan =
    { slot := none, even := ⟨none, false, []⟩, odd := ⟨none, false, []⟩, records := [], output := .background,
      underrun := 0, cutFrames := 0, fetches := 0, staleFetch := 0 } ∧
  State.reset.report = { queue := [], sending := none, pollBad := 0, pollDropped := 0, reportsSent := 0 }

/-- A device reset, in every state, puts every block into its reset values and holds the part in the reset; frame
memory keeps every byte, but those of the line whose write it cuts. A pulse on RESET_N shorter than 1 microsecond
resets nothing (R188). At the end of the reset station time starts from 0 (R74). The model's own are: a reset that
comes while one lasts begins it anew, and RESET_END ignores what has passed before it (log 8); whether the forward lane
recovers symbols survives the reset (log 9); every byte of the cut line is open (log 11); and no other command has any
effect while the reset lasts, but that the signal of the forward lane is followed (logs 8 and 9). -/
def Obligations.DeviceResetAndItsEnd : Prop :=
  ((∀ (e : Elapsed) (cause : ResetCause) (s : State), cause = .powerOn ∨ (∃ n, cause = .resetPin n ∧ 100 ≤ n) →
    ∃ mem draws,
      exec (.deviceReset e cause) s = .next (State.afterReset true s.pending s.link.signal mem draws) ∧
      (s.cutWrite = none → ∀ a, Memory.read mem a = Memory.read s.mem a) ∧
      (∀ first n, s.cutWrite = some (first, n) →
        ∀ a, a < first ∨ first + n ≤ a → Memory.read mem a = Memory.read s.mem a)) ∧
  (∀ (e : Elapsed) (n : Nat) (s : State), s.held = false → n < 100 →
    exec (.deviceReset e (.resetPin n)) s = .next (s.elapse e))) ∧
  (∀ (e : Elapsed) (s : State), s.held = true → exec (.resetEnd e) s = .next { s with held := false, now := 0 }) ∧
  (∀ (i : Instr) (s : State), s.held = true →
    match i with
    | .resetEnd _ => True
    | .deviceReset _ .powerOn => True
    | .deviceReset _ (.resetPin n) => n < 100 → exec i s = .next s
    | .linkLossOfSignal _ => exec i s = .next { s with link := { s.link with signal := false } }
    | .linkSignalPresent _ => exec i s = .next { s with link := { s.link with signal := true } }
    | _ => exec i s = .next s)

/-- The 24th byte of a valid image settles it and takes the station to RUNNING (R185). The state is CONFIGURING as
`QuietLaw` describes it. The Scan-Out Unit keeps its values, but that with VB = 2 frame line 0 of the timer that starts asks
for active line 0 (R165). The configuration memory port, selected and clocked until then with the read command sent,
goes idle (R183). -/
def Obligations.GoodImageEntersRunning : Prop :=
  ∀ (e : Elapsed) (rest : List Byte) (c : Settings) (s : State),
    s.held = false → s.loader.station = .configuring → QuietLaw s →
    ((s.elapse e).loader.image ++ rest).length = 24 → checkImage ((s.elapse e).loader.image ++ rest) = .ok c →
    ∃ t, exec (.configReadComplete e rest) s = .next t ∧
      t.loader = ⟨.running, (s.elapse e).loader.image ++ rest, some c, none⟩ ∧
      t.slots = { SlotManager.reset with table := List.replicate c.slotCount .freed } ∧
      t.roster = { RosterUnit.reset with ownPresent := true } ∧ t.role = .reset ∧
      t.timing = { TimingUnit.reset with
        timer := some
          { last := (s.elapse e).now, next := (s.elapse e).now + BitVec.ofNat 32 (c.lineTicks * (c.vb + c.h)),
            line := 0 } } ∧
      t.notices = (s.elapse e).notices ||| 0x0002#16 ∧
      t.link = { (s.elapse e).link with state := if (s.elapse e).link.signal then .hunt else .down } ∧
      Frame [.loader, .slots, .roster, .role, .timing, .notices, .link, .scan] (s.elapse e) t ∧
      t.scan =
        { (s.elapse e).scan with even := if c.vb = 2 then ⟨some 0, false, []⟩ else (s.elapse e).scan.even } ∧
      t.scan.slot = none ∧ t.scan.records = [] ∧
      (s.elapse e).configPort = ⟨true, true, [0x03, 0, 0, 0]⟩ ∧ t.configPort = ⟨false, false, []⟩

/-- The 24th byte of an image that is not valid takes the station to CONFIG_FAULT: the cause is recorded, the image is
kept, the hold of the Source Link Receiver ends, and nothing else changes (R186). The configuration memory port goes
idle here too (R183). The checks are five, and the first that fails gives the cause (R184): the CRC over bytes 0 to 21, the
format code, the range of each field in the order of the table of R183, the bytes and bits that no field uses, and the frame
period. Group, origin-capable, advance policy and background colour have no value out of range. An image that passes all
five is settled. -/
def Obligations.BadImageEntersConfigFault : Prop :=
  (∀ (e : Elapsed) (rest : List Byte) (cause : FaultCause) (s : State),
    s.held = false → s.loader.station = .configuring →
    ((s.elapse e).loader.image ++ rest).length = 24 → checkImage ((s.elapse e).loader.image ++ rest) = .error cause →
    let t : State :=
      { s.elapse e with
        loader := ⟨.configFault, (s.elapse e).loader.image ++ rest, none, some cause⟩,
        link := { (s.elapse e).link with state := if (s.elapse e).link.signal then .hunt else .down } }
    exec (.configReadComplete e rest) s = .next t ∧
      (s.elapse e).configPort = ⟨true, true, [0x03, 0, 0, 0]⟩ ∧ t.configPort = ⟨false, false, []⟩) ∧
  (∀ image : List Byte,
    let byte (i : Nat) : Nat := (image.getD i 0).toNat
    let word (i : Nat) : Nat := 256 * byte i + byte (i + 1)
    let fields : List (ImageField × Nat × Nat × Nat) :=
      [(.address, byte 1 % 32, 0, 30), (.format, byte 3 % 8, 0, 3), (.slotCount, byte 3 / 8 % 8, 3, 4),
        (.lineTicks, word 4, 200, 65535), (.vb, byte 6, 2, 255), (.h, word 7, 64, 1200), (.w, word 9, 64, 1920),
        (.lockWindow, word 11, 1, 65535), (.slewLimit, word 13, 1, 4095), (.segmentDelay, word 15, 0, 4095)]
    let bad := fields.find? fun (_, value, low, high) => decide (value < low ∨ high < value)
    let unused := byte 1 / 32 + byte 2 / 32 + byte 3 / 64 + byte 20 + byte 21
    let period := word 4 * (byte 6 + word 7)
    let crc : Prop := (crc16 (image.take 22)).toNat = word 22
    (¬ crc → checkImage image = .error .imageCrc) ∧
    (crc → byte 0 ≠ 0x31 → checkImage image = .error .formatCode) ∧
    (∀ f range, crc → byte 0 = 0x31 → bad = some (f, range) → checkImage image = .error (.fieldRange f)) ∧
    (crc → byte 0 = 0x31 → bad = none → unused ≠ 0 → checkImage image = .error .unusedNonzero) ∧
    (crc → byte 0 = 0x31 → bad = none → unused = 0 → period < 500000 ∨ 4000000 < period →
      checkImage image = .error .periodRange) ∧
    (crc → byte 0 = 0x31 → bad = none → unused = 0 → 500000 ≤ period → period ≤ 4000000 →
      ∃ c, checkImage image = .ok c))

/-- Every configuration within the ranges of R183 whose frame period is within the range of R184 is settled by the
image that encodes it; that image holds each field in the bytes and bits of 13.7, the bytes 20 and 21 zero and the CRC over
bytes 0 to 21 behind them; and an image of 24 bytes that is settled is the one of its configuration. -/
def Obligations.ImageRoundTrip : Prop :=
  (∀ c : Settings, c.address ≠ 31 → (c.slotCount = 3 ∨ c.slotCount = 4) → (200 ≤ c.lineTicks ∧ c.lineTicks ≤ 65535) →
    (2 ≤ c.vb ∧ c.vb ≤ 255) → (64 ≤ c.h ∧ c.h ≤ 1200) → (64 ≤ c.w ∧ c.w ≤ 1920) →
    (1 ≤ c.lockWindow ∧ c.lockWindow ≤ 65535) → (1 ≤ c.slewLimit ∧ c.slewLimit ≤ 4095) → c.segmentDelay ≤ 4095 →
    (500000 ≤ c.lineTicks * (c.vb + c.h) ∧ c.lineTicks * (c.vb + c.h) ≤ 4000000) →
    c.image.length = 24 ∧ checkImage c.image = .ok c ∧
    c.image.take 22 =
      [0x31] ++ numberBytes 1 c.address.toNat ++
      numberBytes 1 (c.group.toNat + 8 * c.capable.toNat + 16 * position [.next, .newest] c.policy) ++
      numberBytes 1 (position [.p24, .p16, .p12, .p30] c.format + 8 * c.slotCount) ++ numberBytes 2 c.lineTicks ++
      numberBytes 1 c.vb ++ numberBytes 2 c.h ++ numberBytes 2 c.w ++ numberBytes 2 c.lockWindow ++
      numberBytes 2 c.slewLimit ++ numberBytes 2 c.segmentDelay ++ numberBytes 3 c.background.toNat ++ [0, 0] ∧
    c.image.drop 22 = numberBytes 2 (crc16 (c.image.take 22)).toNat) ∧
  (∀ (image : List Byte) (c : Settings), image.length = 24 → checkImage image = .ok c → c.image = image)

/-! ### Ring reception -/

/-- Loss of signal on RING IN, in every receive state, and signal present (R96); a start marker begins a packet, stamped
with station time, and truncates one in reception; fill truncates one in reception (R97, R98). Ten bits received on
RING IN act by the symbol that they are taken as (R190): a start marker, fill, or a data byte, which ends the header or
the packet in reception or joins what is collected. -/
def Obligations.RingSignalAndFraming : Prop :=
  ((∀ (e : Elapsed) (s : State), s.held = false →
    exec (.ringLossOfSignal e) s = .next
      { s.elapse e with
        ringIn :=
          { (s.elapse e).ringIn with
            state := .down, packet := none, signalLost := bump (s.elapse e).ringIn.signalLost },
        ringOut :=
          { (s.elapse e).ringOut with
            occupancy := (s.elapse e).ringOut.occupancy - (s.elapse e).ringIn.reservation } }) ∧
  (∀ (e : Elapsed) (s : State), s.held = false →
    exec (.ringSignalPresent e) s = .next
      (if (s.elapse e).ringIn.state = .down then
        { s.elapse e with ringIn := { (s.elapse e).ringIn with state := .hunt } }
      else s.elapse e))) ∧
  ((∀ (e : Elapsed) (s : State), s.held = false → (s.elapse e).ringIn.state ≠ .down →
    exec (.ringStartMarker e) s = .next
      { s.elapse e with
        ringIn :=
          { (s.elapse e).ringIn with
            state := .header,
            packet := some { arrival := (s.elapse e).now, taken := [], header := none, reserved := false },
            truncated :=
              if (s.elapse e).ringIn.packet.isSome then bump (s.elapse e).ringIn.truncated
              else (s.elapse e).ringIn.truncated },
        ringOut :=
          { (s.elapse e).ringOut with
            occupancy := (s.elapse e).ringOut.occupancy - (s.elapse e).ringIn.reservation } }) ∧
  (∀ (e : Elapsed) (s : State), s.held = false →
    exec (.ringFill e) s = .next
      (if (s.elapse e).ringIn.packet.isSome then
        { s.elapse e with
          ringIn :=
            { (s.elapse e).ringIn with
              state := .hunt, packet := none, truncated := bump (s.elapse e).ringIn.truncated },
          ringOut :=
            { (s.elapse e).ringOut with
              occupancy := (s.elapse e).ringOut.occupancy - (s.elapse e).ringIn.reservation } }
      else s.elapse e))) ∧
  (∀ (e : Elapsed) (order : FrameOrder) (code : BitVec 2) (bits : Byte) (s : State), s.held = false →
    let b := s.elapse e
    let t := b.ringReceives order (serialBits code bits)
    (takeSymbol code bits = .startMarker → exec (.ringStartMarker e) s = .next t) ∧
    (takeSymbol code bits = .fill → exec (.ringFill e) s = .next t) ∧
    (∀ x, takeSymbol code bits = .data x →
      (b.ringIn.packet = none → t = b) ∧
      (∀ p, b.ringIn.packet = some p →
        (p.header = none → p.taken.length = 7 → exec (.ringHeaderTaken e [x]) s = .next t) ∧
        (∀ h, p.header = some h → p.taken.length = h.length.toNat + 1 →
          exec (.ringPacketComplete e [x] order) s = .next t) ∧
        ((p.header = none ∧ p.taken.length < 7) ∨ (∃ h, p.header = some h ∧ p.taken.length < h.length.toNat + 1) →
          t = { b with ringIn := { b.ringIn with packet := some { p with taken := p.taken ++ [x] } } }))))

/-- The headers that the Ring Receiver discards, in the order of its tests: uncorrectable (R99), Length above 56
(R100), and of the headers that are not the station's own those with Hops 0 (R103) and those whose packet does not fit
the forward queue (R104). Each counts its one counter and changes nothing else. -/
def Obligations.RingHeaderDiscards : Prop :=
  (∀ (e : Elapsed) (rest : List Byte) (p : RingRxPacket) (s : State), s.held = false →
    (s.elapse e).ringIn.packet = some p → p.header = none → (p.taken ++ rest).length = 8 →
    checkHeader (p.taken ++ rest) = .bad →
    exec (.ringHeaderTaken e rest) s = .next
      { s.elapse e with
        ringIn :=
          { (s.elapse e).ringIn with
            state := .hunt, packet := none, hdrBad := bump (s.elapse e).ringIn.hdrBad } }) ∧
  (∀ (e : Elapsed) (rest : List Byte) (fixed : Bool) (h : RingHeader) (arrival : Tick) (s : State),
    RingHeaderIn e rest fixed h arrival s →
    let b := ringBase e fixed s
    let left := { b.ringIn with state := .hunt, packet := none }
    (56 < h.length.toNat →
      exec (.ringHeaderTaken e rest) s = .next { b with ringIn := { left with lengthBad := bump left.lengthBad } }) ∧
    (h.length.toNat ≤ 56 → (∀ c, b.active = some c → h.origin ≠ c.address) → h.hops = 0 →
      exec (.ringHeaderTaken e rest) s = .next { b with ringIn := { left with orphan := bump left.orphan } }) ∧
    (h.length.toNat ≤ 56 → (∀ c, b.active = some c → h.origin ≠ c.address) → h.hops ≠ 0 →
      160 < b.ringOut.occupancy + (if h.length = 0 then 8 else 10 + h.length.toNat) →
      exec (.ringHeaderTaken e rest) s = .next
        { b with ringIn := { left with forwardOverflow := bump left.forwardOverflow } }))

/-- An own packet coming home is stripped (R101). Its sequence in the outstanding list confirms the round trip: with the
list split at the first entry of that sequence, that entry and every earlier one leave, the ring state becomes INTACT,
and RING_CHANGED is raised if it was not; a sequence not in the list is an address conflict (R102). -/
def Obligations.OwnPacketComesHome : Prop :=
  (∀ (e : Elapsed) (rest : List Byte) (fixed : Bool) (h : RingHeader) (arrival : Tick) (c : Settings)
    (before after : List Outstanding) (o : Outstanding) (s : State),
    RingHeaderIn e rest fixed h arrival s → h.length.toNat ≤ 56 → (ringBase e fixed s).active = some c →
    h.origin = c.address → (ringBase e fixed s).ringOut.outstanding = before ++ o :: after →
    o.sequence = h.sequence → (∀ x ∈ before, x.sequence ≠ h.sequence) →
    let b := ringBase e fixed s
    exec (.ringHeaderTaken e rest) s = .next
      { b with
        ringIn := { b.ringIn with state := .hunt, packet := none, stripped := bump b.ringIn.stripped },
        ringOut := { b.ringOut with outstanding := after, ring := .intact },
        notices := if b.ringOut.ring = .intact then b.notices else b.notices ||| 0x0008#16 }) ∧
  (∀ (e : Elapsed) (rest : List Byte) (fixed : Bool) (h : RingHeader) (arrival : Tick) (c : Settings) (s : State),
    RingHeaderIn e rest fixed h arrival s → h.length.toNat ≤ 56 → (ringBase e fixed s).active = some c →
    h.origin = c.address → (∀ x ∈ (ringBase e fixed s).ringOut.outstanding, x.sequence ≠ h.sequence) →
    let b := ringBase e fixed s
    exec (.ringHeaderTaken e rest) s = .next
      { b with
        ringIn := { b.ringIn with state := .hunt, packet := none, stripped := bump b.ringIn.stripped },
        ringOut := { b.ringOut with addressConflict := bump b.ringOut.addressConflict },
        roster := { b.roster with conflictHold := 16 }, notices := b.notices ||| 0x0080#16 })

/-- A header to be forwarded reserves room for the whole packet; with a payload the receive state is PAYLOAD (R104),
and without one the packet is complete, its CRC taken as good (R105, R107): it is passed on, and one of the own group
with TAINT clear is consumed, where its content or its shape refuses it (R49, R108, R109). -/
def Obligations.RingHeaderReservesRoom : Prop :=
  ∀ (e : Elapsed) (rest : List Byte) (fixed : Bool) (h : RingHeader) (arrival : Tick) (s : State),
    RingHeaderIn e rest fixed h arrival s → h.length.toNat ≤ 56 →
    (∀ c, (ringBase e fixed s).active = some c → h.origin ≠ c.address) → h.hops ≠ 0 →
    (ringBase e fixed s).ringOut.occupancy + (if h.length = 0 then 8 else 10 + h.length.toNat) ≤ 160 →
    let b := ringBase e fixed s
    let kept := { b with ringOut := { b.ringOut with
      occupancy := b.ringOut.occupancy + (if h.length = 0 then 8 else 10 + h.length.toNat) } }
    let p := passed h true [] arrival kept
    let t := consumed h [] arrival kept
    (h.length ≠ 0 →
      exec (.ringHeaderTaken e rest) s = .next
        { kept with
          ringIn :=
            { b.ringIn with
              state := .payload,
              packet := some { arrival := arrival, taken := [], header := some h, reserved := true } } }) ∧
    (h.length = 0 →
      (h.taint = true ∨ (∀ c, b.active = some c → h.group ≠ c.group) ∨
          (h.kind ≠ 0x01#8 ∧ h.kind ≠ 0x02#8 ∧ h.kind ≠ 0x03#8) →
        exec (.ringHeaderTaken e rest) s = .next p) ∧
      (∀ c, h.taint = false → b.active = some c → h.group = c.group →
        (h.kind = 0x01#8 → exec (.ringHeaderTaken e rest) s = .next
          { p with ringIn := { p.ringIn with beatRefused := bump p.ringIn.beatRefused } }) ∧
        (h.kind = 0x02#8 ∨ h.kind = 0x03#8 → exec (.ringHeaderTaken e rest) s = .next
          { t with roster := { t.roster with rosterRefused := bump t.roster.rosterRefused } })))

/-- A packet that completes is passed on, TAINT set where its CRC failed, and is counted (R105, R107): behind a busy
RING OUT it joins the tail of the forward queue, and an IDLE one takes the head of the queue at once (R118). A tainted
packet, one whose CRC fails, one of another group, or of any group before RUNNING, and one of another kind is not
consumed (R106, R108, R110). -/
def Obligations.RingPacketIsForwarded : Prop :=
  ∀ (e : Elapsed) (rest body : List Byte) (order : FrameOrder) (h : RingHeader) (arrival : Tick) (s : State),
    RingBodyIn e rest h body arrival s →
    (h.taint = true ∨ crcGood h.length.toNat body = false ∨
      (∀ c, (s.elapse e).active = some c → h.group ≠ c.group) ∨
      (h.kind ≠ 0x01#8 ∧ h.kind ≠ 0x02#8 ∧ h.kind ≠ 0x03#8)) →
    exec (.ringPacketComplete e rest order) s = .next
      (passed h (crcGood h.length.toNat body) body arrival (s.elapse e))

/-! ### The roster -/

/-- A good STANDING of the own group that passes the content check (R49 to R51): a new address makes a JOINING entry, an
equal sequence is a duplicate, and any other refreshes the entry and makes it MEMBER, with ROSTER_CHANGED where it was
JOINING. An entry that so becomes a capable MEMBER, or whose CAPABLE changes from no to yes, makes an ORIGIN of higher
address yield to it (R52, R69); otherwise nothing but the roster and the notice changes. The tick of the departure is kept
in the model's own field `departedAt` (log 13). A STANDING that names the own address is consumed and leaves the roster as
it is, which is the model's choice (log 27). -/
def Obligations.StandingUpdatesRoster : Prop :=
  (∀ (e : Elapsed) (rest body : List Byte) (order : FrameOrder) (h : RingHeader) (arrival : Tick) (c : Settings)
    (x : Standing) (s : State),
    OwnGroupIn e rest 0x02 h body arrival c s → h.origin ≠ 31 →
    parseStanding (body.take h.length.toNat) = some x →
    let b := consumed h body arrival (s.elapse e)
    let new (member : Bool) : Entry :=
      { address := h.origin, member := member, said := x, silence := 0, lastSequence := h.sequence }
    let joins : Bool :=
      match findEntry h.origin b.roster.entries with
      | none => false
      | some old => old.lastSequence != h.sequence && !old.member
    let becomesCapable : Bool :=
      match findEntry h.origin b.roster.entries with
      | none => false
      | some old => old.lastSequence != h.sequence && x.capable && (!old.member || !old.said.capable)
    let noticed := if joins = true then b.notices ||| 0x0001#16 else b.notices
    let yields : Prop := b.role.role = .origin ∧ becomesCapable = true ∧ h.origin.toNat < c.address.toNat
    (h.origin = c.address → exec (.ringPacketComplete e rest order) s = .next b) ∧
    (h.origin ≠ c.address → ∃ t, exec (.ringPacketComplete e rest order) s = .next t ∧
      t.roster =
        (match findEntry h.origin b.roster.entries with
        | none =>
          { b.roster with
            entries := putEntry (new false) b.roster.entries, standingsTaken := bump b.roster.standingsTaken }
        | some old =>
          if old.lastSequence = h.sequence then
            { b.roster with duplicateStanding := bump b.roster.duplicateStanding }
          else
            { b.roster with
              entries := putEntry (new true) b.roster.entries, standingsTaken := bump b.roster.standingsTaken }) ∧
      (¬ yields → t = { b with roster := t.roster, notices := noticed }) ∧
      (yields → t =
        { b with
          roster := t.roster,
          role := { b.role with role := .follower, current := none, yields := bump b.role.yields },
          timing :=
            { b.timing with
              lock := .holdover, holdover := 0, holdoverEntries := bump b.timing.holdoverEntries,
              departedAt := some b.now },
          ringOut :=
            { b.ringOut with
              beat := none,
              takenBack :=
                if b.ringOut.beat.isSome then bump b.ringOut.takenBack else b.ringOut.takenBack },
          notices := noticed ||| (if b.timing.lock = .holdover then 0x0002#16 else 0x0006#16) }))) ∧
  (∀ (x : Entry) (a : Address) (es : List Entry),
    findEntry a (putEntry x es) = (if a = x.address then some x else findEntry a es) ∧
    (∀ y, findEntry a es = some y → y ∈ es ∧ y.address = a) ∧
    (findEntry a es = none ↔ ∀ y ∈ es, y.address ≠ a))

/-- A good LEAVE of the own group removes the entry at its address (R54), with the shortcut of R70; one that names the
own address finds no entry of another station, and the own entry stays (log 27: the model's choice). A STANDING or LEAVE
that fails the content check is refused and changes no entry (R49). -/
def Obligations.LeavesAndBadContent : Prop :=
  (∀ (e : Elapsed) (rest body : List Byte) (order : FrameOrder) (h : RingHeader) (arrival : Tick) (c : Settings)
    (s : State),
    OwnGroupIn e rest 0x03 h body arrival c s → h.origin ≠ 31 → h.length = 1 →
    let b := consumed h body arrival (s.elapse e)
    exec (.ringPacketComplete e rest order) s = .next
      { b with
        roster :=
          { b.roster with
            entries := b.roster.entries.filter (fun x => x.address != h.origin),
            leavesTaken := bump b.roster.leavesTaken,
            lastLeave := some { address := h.origin, reason := byteAt body 0 } },
        notices :=
          if b.roster.entries.any (fun x => x.address == h.origin) then b.notices ||| 0x0001#16 else b.notices,
        role :=
          if b.role.current = some h.origin then { b.role with current := none, beatsMissed := 3 } else b.role }) ∧
  (∀ (e : Elapsed) (rest body : List Byte) (order : FrameOrder) (h : RingHeader) (arrival : Tick) (c : Settings)
    (s : State),
    (OwnGroupIn e rest 0x02 h body arrival c s ∧
        (h.origin = 31 ∨ parseStanding (body.take h.length.toNat) = none)) ∨
      (OwnGroupIn e rest 0x03 h body arrival c s ∧ (h.origin = 31 ∨ h.length ≠ 1)) →
    let b := consumed h body arrival (s.elapse e)
    exec (.ringPacketComplete e rest order) s = .next
      { b with roster := { b.roster with rosterRefused := bump b.roster.rosterRefused } })

/-- The departure of the own STANDING, at the completion of the transmission that makes way for it, ages the other
entries: SILENCE rises, an entry whose SILENCE was 3 is removed, ENTRIES_AGED counts it and ROSTER_CHANGED is raised
(R53); the own LAST_SEQUENCE takes the sequence sent (R47). The same at a frame start whose offer finds RING OUT IDLE and
departs at once: at a station that is not ORIGIN, and at an ORIGIN whose offer is taken before the composition (R46, R118).
What that STANDING says, an event of the same frame start being carried or not by which is taken first (R47), is stated in
the order that the command carries (log 7), and its payload is taken before a full outstanding list makes room (log 15).
That ENTRY_AGED stands for that completion, or for that frame start, where an entry is removed at it, is the model's choice
(log 5). -/
def Obligations.StandingDepartureAgesEntries : Prop :=
  (∀ (e : Elapsed) (order : FrameOrder) (c : Settings) (x : Sending) (s : State), s.held = false →
    (s.elapse e).loader.settled = some c → (s.elapse e).ringOut.sending = some x → (s.elapse e).ringOut.queue = [] →
    (s.elapse e).ringOut.leave = false → (s.elapse e).ringOut.beat = none → (s.elapse e).ringOut.standing = true →
    let b := s.elapse e
    ∃ t, exec (.ringTransmissionComplete e) s = .next t ∧
      t.roster =
        { b.roster with
          entries :=
            (b.roster.entries.filter (fun y => decide (y.silence < 3))).map
              (fun y => { y with silence := y.silence + 1 }),
          entriesAged := bumpBy (b.roster.entries.countP (fun y => decide (3 ≤ y.silence))) b.roster.entriesAged,
          ownSequence := b.ringOut.sequence } ∧
      ((∃ y ∈ b.roster.entries, 3 ≤ y.silence) →
        exec (.entryAged e order) s = .next t ∧ t.notices.getLsbD 0 = true) ∧
      Frame [.ringOut, .roster, .notices] b t) ∧
  (∀ (e : Elapsed) (order : FrameOrder) (c : Settings) (timer : FrameTimer) (s : State), TimerRuns e c timer s →
    s.loader.station = .running → (s.elapse e).ringOut.sending = none → (s.elapse e).ringOut.queue = [] →
    (s.elapse e).ringOut.leave = false → (s.elapse e).ringOut.beat = none →
    let b := s.elapse e
    ∃ t, exec (.frameStart e order) s = .next t ∧
      (t.role.role ≠ .origin ∨ FramePart.before order.taken .offer .compose = true →
        t.roster.entries =
          (b.roster.entries.filter (fun y => decide (y.silence < 3))).map
            (fun y => { y with silence := y.silence + 1 }) ∧
        t.roster.entriesAged =
          bumpBy (b.roster.entries.countP (fun y => decide (3 ≤ y.silence))) b.roster.entriesAged ∧
        t.roster.ownSequence = b.ringOut.sequence ∧ t.ringOut.standing = false ∧
        t.ringOut.sequence = b.ringOut.sequence + 1 ∧ t.ringOut.localSent = bump b.ringOut.localSent ∧
        t.ringOut.sending = (ownSent c .standing 0 (saidAtFrameStart c order b t).payload b).ringOut.sending ∧
        ((∃ y ∈ b.roster.entries, 3 ≤ y.silence) →
          exec (.entryAged e order) s = .next t ∧ t.notices.getLsbD 0 = true)))

/-! ### BEATs -/

/-- The BEATs that are not accepted: one of the wrong shape, before it is handed over (R109); a differing period, in every
role (R63); at an ORIGIN a BEAT from a higher address (R66); elsewhere a BEAT that meets no condition of R64. -/
def Obligations.BeatsNotAccepted : Prop :=
  (∀ (e : Elapsed) (rest body : List Byte) (order : FrameOrder) (h : RingHeader) (arrival : Tick) (c : Settings)
    (s : State), OwnGroupIn e rest 0x01 h body arrival c s → (h.length ≠ 9 ∨ h.origin = 31) →
    let b := passed h true body arrival (s.elapse e)
    exec (.ringPacketComplete e rest order) s = .next
      { b with ringIn := { b.ringIn with beatRefused := bump b.ringIn.beatRefused } }) ∧
  (∀ (e : Elapsed) (rest body : List Byte) (order : FrameOrder) (h : RingHeader) (arrival : Tick) (c : Settings)
    (s : State), OwnGroupIn e rest 0x01 h body arrival c s → h.length = 9 → h.origin ≠ 31 →
    let b := consumed h body arrival (s.elapse e)
    let beat := parseBeat (body.take 9)
    (beat.period.toNat ≠ c.lineTicks * (c.vb + c.h) →
      exec (.ringPacketComplete e rest order) s = .next
        { b with
          role := { b.role with periodMismatch := bump b.role.periodMismatch },
          roster := { b.roster with mismatchHold := 16 }, notices := b.notices ||| 0x0200#16 }) ∧
    (beat.period.toNat = c.lineTicks * (c.vb + c.h) → b.role.role = .origin → c.address.toNat < h.origin.toNat →
      exec (.ringPacketComplete e rest order) s = .next
        { b with role := { b.role with dueling := bump b.role.dueling } }) ∧
    (∀ o, beat.period.toNat = c.lineTicks * (c.vb + c.h) → b.role.role ≠ .origin → b.role.current = some o →
      o ≠ h.origin → o.toNat ≤ h.origin.toNat → b.role.beatsMissed < 2 →
      exec (.ringPacketComplete e rest order) s = .next
        { b with role := { b.role with ignoredBeats := bump b.role.ignoredBeats } }))

/-- An accepted BEAT with a saturated Delay (R64, R65, R79): the Role Controller takes it, the Timing Unit only counts
it, and its decision is taken up against the local epoch as it stands (R30). -/
def Obligations.SaturatedBeatIsAccepted : Prop :=
  ∀ (e : Elapsed) (rest body : List Byte) (order : FrameOrder) (h : RingHeader) (arrival : Tick) (c : Settings)
    (s : State), OwnGroupIn e rest 0x01 h body arrival c s → h.length = 9 → h.origin ≠ 31 →
    let b := consumed h body arrival (s.elapse e)
    let beat := parseBeat (body.take 9)
    beat.period.toNat = c.lineTicks * (c.vb + c.h) → b.role.role ≠ .origin → h.delay = 65535#16 →
    (b.role.current = none ∨ (∃ o, b.role.current = some o ∧ h.origin.toNat ≤ o.toNat) ∨ 2 ≤ b.role.beatsMissed) →
    exec (.ringPacketComplete e rest order) s = .next
      { b with
        role := beatTaken h beat b.role,
        timing := { b.timing with saturatedDelay := bump b.timing.saturatedDelay },
        presentation := decisionTaken b.role.role b.timing.epoch beat b.presentation }

/-- An ORIGIN that receives a BEAT of matching period from a lower address yields to it and accepts it (R67, R68). The
departure comes first: FOLLOWER, HOLDOVER, the waiting BEAT taken back. Then the Role Controller takes the BEAT (R65);
the Timing Unit evaluates it from HOLDOVER (R89), or only counts one with a saturated Delay (R79); and its decision is
taken up by a FOLLOWER against the epoch so left (R30). No frame start is made at once, since nothing is trimmed in
HOLDOVER. The tick of the departure is kept in the model's own field `departedAt` (log 13). -/
def Obligations.OriginYieldsToLowerBeat : Prop :=
  ∀ (e : Elapsed) (rest body : List Byte) (order : FrameOrder) (h : RingHeader) (arrival : Tick) (c : Settings)
    (s : State), OwnGroupIn e rest 0x01 h body arrival c s → h.length = 9 →
    let b := consumed h body arrival (s.elapse e)
    let beat := parseBeat (body.take 9)
    beat.period.toNat = c.lineTicks * (c.vb + c.h) → b.role.role = .origin → h.origin.toNat < c.address.toNat →
    let left := departed .follower b
    let accepted : State := { left with role := beatTaken h beat left.role }
    let takesUp (u : State) : State :=
      { u with presentation := decisionTaken .follower u.timing.epoch beat b.presentation }
    accepted.timing.lock = .holdover ∧
    (h.delay = 65535#16 → exec (.ringPacketComplete e rest order) s = .next
      (takesUp { accepted with timing := { left.timing with saturatedDelay := bump left.timing.saturatedDelay } })) ∧
    (∀ timer, h.delay ≠ 65535#16 → b.timing.timer = some timer → exec (.ringPacketComplete e rest order) s = .next
      (takesUp (State.timedBeat c beat.epoch arrival h.delay timer accepted).1))

/-- A timed BEAT by the lock state (R82 to R89), at the Timing Unit: `t0` is R80's estimate, `d` is N - t0, and the
phase error is kT - d with k = 0 for d up to T/2 and k = 1 above (R81). Each outcome is the whole state: a jump, a lock, a
trim or a slip, with the timer, the epoch and EPOCH_STEP, the counts and the counters, the last estimate, and
LOCK_CHANGED where the lock state changes (R92); a jump, and a lock from HOLDOVER, sets the holdover count to 0. A BEAT
that is accepted at RING IN with a Delay
below 65,535 comes to it (R64, R65, R79): the Role Controller takes it, the Timing Unit makes its correction, and its
decision is taken up against the epoch as corrected (R30). A trim that moves the next frame start to the present or
before it produces the frame start at once, at the present and with epoch BEAT epoch + k (R84); that this takes a
negative correction is log 18's deduction. -/
def Obligations.TimedBeatByLockState : Prop :=
  (∀ (c : Settings) (epoch : Epoch) (arrival : Tick) (delay : BitVec 16) (timer : FrameTimer) (s : State),
    let t0 := arrival - delay.setWidth 32 - BitVec.ofNat 32 c.segmentDelay
    let d := (timer.next - t0).toInt
    let k : Nat := if 2 * d ≤ c.period then 0 else 1
    let err : Int := k * c.period - d
    let near := err.natAbs ≤ c.lockWindow
    let u := s.timing
    let becomes (v : TimingUnit) (action : EstimateAction) (correction : Int) : State :=
      { s with
        timing :=
          { v with
            timedMissed := 0, epochStep := if v.epoch = u.epoch then u.epochStep else bump u.epochStep,
            estimate := some ⟨epoch, err, action, correction⟩ },
        notices := if v.lock = u.lock then s.notices else s.notices ||| 0x0004#16 }
    let follows := epoch + BitVec.ofNat 16 k - 1
    let trimBy := max (-(c.slewLimit : Int)) (min (c.slewLimit : Int) err)
    let jumps := becomes
      { u with
        timer := some { timer with next := t0 + BitVec.ofNat 32 c.period }, epoch := epoch, lock := .acquiring,
        slip := 0, holdover := 0, jumps := bump u.jumps } .jump (c.period - d)
    let locks := becomes { u with epoch := follows, lock := .locked, slip := 0, holdover := 0 } .lock 0
    let trims := becomes
      { u with
        timer := some { timer with next := timer.next + BitVec.ofInt 32 trimBy }, epoch := follows,
        slip := 0 } .trim trimBy
    let slips := becomes { u with epoch := follows, slip := 1, slips := bump u.slips } .slip 0
    let outcome := (s.timedBeat c epoch arrival delay timer).1
    (u.lock = .free → outcome = jumps) ∧
    (u.lock = .acquiring ∨ u.lock = .holdover → (near → outcome = locks) ∧ (¬ near → outcome = jumps)) ∧
    (u.lock = .locked →
      (near → outcome = trims) ∧ (¬ near → u.slip = 0 → outcome = slips) ∧
      (¬ near → u.slip ≠ 0 → outcome = jumps))) ∧
  (∀ (e : Elapsed) (rest body : List Byte) (order : FrameOrder) (h : RingHeader) (arrival : Tick) (c : Settings)
    (timer : FrameTimer) (s : State), OwnGroupIn e rest 0x01 h body arrival c s → h.length = 9 → h.origin ≠ 31 →
    let b := consumed h body arrival (s.elapse e)
    let beat := parseBeat (body.take 9)
    beat.period.toNat = c.lineTicks * (c.vb + c.h) → b.role.role ≠ .origin → h.delay ≠ 65535#16 →
    (b.role.current = none ∨ (∃ o, b.role.current = some o ∧ h.origin.toNat ≤ o.toNat) ∨ 2 ≤ b.role.beatsMissed) →
    b.timing.timer = some timer →
    let d := (timer.next - (arrival - h.delay.setWidth 32 - BitVec.ofNat 32 c.segmentDelay)).toInt
    let k : Nat := if 2 * d ≤ c.period then 0 else 1
    let err : Int := k * c.period - d
    let correction := max (-(c.slewLimit : Int)) (min (c.slewLimit : Int) err)
    let timed := (State.timedBeat c beat.epoch arrival h.delay timer { b with role := beatTaken h beat b.role }).1
    let shows : State :=
      { timed with presentation := decisionTaken b.role.role timed.timing.epoch beat b.presentation }
    let fires : Prop := b.timing.lock = .locked ∧ err.natAbs ≤ c.lockWindow ∧ correction < 0 ∧
      (timer.next - b.now).toInt + correction ≤ 0
    (¬ fires → exec (.ringPacketComplete e rest order) s = .next shows) ∧
    (fires → ∃ t, exec (.ringPacketComplete e rest order) s = .next t ∧ t = shows.frameStartAt b.now order ∧
      t.timing.timer = some ⟨b.now, b.now + BitVec.ofNat 32 c.period, 0⟩ ∧
      t.timing.epoch = beat.epoch + BitVec.ofNat 16 k ∧ t.timing.frameCount = b.timing.frameCount + 1))

/-! ### Ring transmission -/

/-- At the completion of a transmission the room of a forwarded packet is freed and the head of the forward queue
departs: Hops one lower, and a BEAT's Delay raised by its residence and the segment delay, held at 65,535 (R113, R117
to R120). -/
def Obligations.ForwardedPacketDeparts : Prop :=
  ∀ (e : Elapsed) (x : Sending) (p : RingPacket) (rest : List RingPacket) (s : State), s.held = false →
    (s.elapse e).ringOut.sending = some x → (s.elapse e).ringOut.queue = p :: rest →
    let b := s.elapse e
    let sum := p.header.delay.toNat + (b.now - p.arrival).toNat + b.segmentDelay
    let isBeat := p.header.kind = 0x01#8
    exec (.ringTransmissionComplete e) s = .next
      { b with
        ringOut :=
          { b.ringOut with
            queue := rest,
            occupancy :=
              (match x.source with
              | .forwarded size => b.ringOut.occupancy - size
              | .own _ => b.ringOut.occupancy),
            delayCapped :=
              if isBeat ∧ p.header.delay ≠ 65535#16 ∧ 65535 ≤ sum then bump b.ringOut.delayCapped
              else b.ringOut.delayCapped,
            sending := some
              { source := .forwarded p.header.size,
                bytes := protectHeader
                    { p.header with
                      hops := p.header.hops - 1,
                      delay := if isBeat then BitVec.ofNat 16 (min 65535 sum) else p.header.delay }.bits ++
                  p.body } } }

/-- With no whole packet waiting the local places are served in the order LEAVE, BEAT, STANDING (R118); the packet takes
the sequence number, LOCAL_SENT rises, its entry joins the tail of the outstanding list, and a full list first loses its
oldest entry, with LOST_OWN, ring state BROKEN and RING_CHANGED if it was not (R121, R122, R124 to R126). A BEAT's Delay
is the time since its frame start, held at 65,535 and then counted in DELAY_CAPPED (R123). The STANDING ages the roster as
it departs (R47, R53); that its payload is taken before the list makes room is log 15's deduction. With nothing waiting
RING OUT becomes IDLE. -/
def Obligations.LocalPlacesAreServed : Prop :=
  ∀ (e : Elapsed) (x : Sending) (c : Settings) (s : State), s.held = false →
    (s.elapse e).loader.settled = some c → (s.elapse e).ringOut.sending = some x →
    (s.elapse e).ringOut.queue = [] →
    let b := s.elapse e
    let freed : RingTransmitter :=
      { b.ringOut with
        sending := none,
        occupancy :=
          match x.source with
          | .forwarded size => b.ringOut.occupancy - size
          | .own _ => b.ringOut.occupancy }
    (b.ringOut.leave = true → exec (.ringTransmissionComplete e) s = .next
      (ownSent c .leave 0 [0x01] { b with ringOut := { freed with leave := false } })) ∧
    (∀ beat, b.ringOut.leave = false → b.ringOut.beat = some beat → exec (.ringTransmissionComplete e) s = .next
      (ownSent c .beat (BitVec.ofNat 16 (min 65535 (sinceStart b))) beat.payload
        { b with
          ringOut :=
            { freed with
              beat := none,
              delayCapped :=
                if 65535 ≤ sinceStart b then bump b.ringOut.delayCapped else b.ringOut.delayCapped } })) ∧
    (b.ringOut.leave = false → b.ringOut.beat = none → b.ringOut.standing = true →
      let sent := ownSent c .standing 0 (ownSaid c b).payload { b with ringOut := { freed with standing := false } }
      exec (.ringTransmissionComplete e) s = .next
        { sent with
          roster :=
            { b.roster with
              entries :=
                (b.roster.entries.filter (fun y => decide (y.silence < 3))).map
                  (fun y => { y with silence := y.silence + 1 }),
              entriesAged := bumpBy (b.roster.entries.countP (fun y => decide (3 ≤ y.silence))) b.roster.entriesAged,
              ownSequence := b.ringOut.sequence },
          notices :=
            if ∃ y ∈ b.roster.entries, 3 ≤ y.silence then sent.notices ||| 0x0001#16 else sent.notices }) ∧
    (b.ringOut.leave = false → b.ringOut.beat = none → b.ringOut.standing = false →
      exec (.ringTransmissionComplete e) s = .next { b with ringOut := freed })

/-! ### Frame starts -/

/-- A frame start in every order of the blocks that the model allows (log 7): the last frame start takes the time of
this one and the next follows T later, the epoch and the frame-start count rise by 1 (R77); beats-missed rises by 1 up
to 255 (R59); exactly one of PRESENTED and REPEATED is counted, REPEATED where the shown frame stays (R37). The Scan-Out
Unit settles the frame that has ended: its waiting fetches are withdrawn, the one in progress is STALE, both line
buffers are released, and CUT_FRAMES counts a frame shorter than T (R167, R169;
VB is at least 2, R183). With VB above 2 it requests nothing here; with VB = 2 the fetch of active line 0 is requested at
frame line 0, the frame start itself (R165), and a presentation at the same frame start marks a fetch in progress STALE and
asks again (R164), in the order taken; a request may be granted at once (R162; an idle frame memory has no line write
waiting, by the invariant of O58). Behind a busy RING OUT a RUNNING station
offers its STANDING into the place, replacing one that waits (R46, R115). The ring receiver, the link, the reports and
the memory are not reached, and of the Frame Assembler only the write queue, by a grant. -/
def Obligations.FrameStartAdvances : Prop :=
  ∀ (e : Elapsed) (order : FrameOrder) (c : Settings) (timer : FrameTimer) (s : State), TimerRuns e c timer s →
    let b := s.elapse e
    let settled := (b.scan.records.filter (fun r => r.inProgress)).map (fun r => { r with stale := true })
    let asked : FetchRecord := ⟨0, 0, false, false⟩
    ∃ t, exec (.frameStart e order) s = .next t ∧
      let presents : Prop := t.presentation.shown ≠ b.presentation.shown
      t.timing.timer = some ⟨timer.next, timer.next + BitVec.ofNat 32 (c.lineTicks * (c.vb + c.h)), 0⟩ ∧
      t.timing.epoch = b.timing.epoch + 1 ∧ t.timing.frameCount = b.timing.frameCount + 1 ∧
      t.timing.timedMissed = min 255 (b.timing.timedMissed + 1) ∧
      t.role.beatsMissed = min 255 (b.role.beatsMissed + 1) ∧
      ((t.presentation.presented = bump b.presentation.presented ∧
          t.presentation.repeated = b.presentation.repeated) ∨
        (t.presentation.presented = b.presentation.presented ∧
          t.presentation.repeated = bump b.presentation.repeated ∧
          t.presentation.shown = b.presentation.shown)) ∧
      (2 ≤ c.vb →
        t.scan.output = .background ∧ t.scan.underrun = b.scan.underrun ∧ t.scan.fetches = b.scan.fetches ∧
        t.scan.staleFetch = b.scan.staleFetch ∧
        t.scan.cutFrames =
          (if (timer.next - timer.last).toNat < c.lineTicks * (c.vb + c.h) then bump b.scan.cutFrames
          else b.scan.cutFrames) ∧
        t.scan.odd = ⟨none, false, []⟩ ∧
        (2 < c.vb → t.scan.even = ⟨none, false, []⟩ ∧ t.scan.records = settled) ∧
        (c.vb = 2 → t.scan.even = ⟨some 0, false, []⟩) ∧
        ((b.transfer = none → b.ingest.queue = []) →
          (2 < c.vb → t.transfer = b.transfer ∧ t.ingest = b.ingest) ∧
          (c.vb = 2 → ¬ presents →
            Granted b.scan.slot b.transfer (if b.scan.slot = none then settled else settled ++ [asked]) b.ingest.queue
              t) ∧
          (∀ i, c.vb = 2 → presents → t.scan.slot = some i →
            (FramePart.before order.taken .present .firstLine = true ∨ b.transfer ≠ none ∨ b.scan.slot = none →
              Granted (some i) b.transfer (settled ++ [asked]) b.ingest.queue t) ∧
            (∀ j, FramePart.before order.taken .firstLine .present = true → b.transfer = none →
              b.scan.slot = some j →
              t.transfer = some (.fetch j 0) ∧ t.scan.records = settled ++ [⟨0, 0, true, true⟩, asked] ∧
                t.ingest = b.ingest)))) ∧
      (b.ringOut.sending ≠ none →
        (s.loader.station = .running → t.ringOut.standing = true ∧
          t.ringOut.standingReplaced =
            (if b.ringOut.standing = true then bump b.ringOut.standingReplaced
            else b.ringOut.standingReplaced)) ∧
        (s.loader.station ≠ .running →
          t.ringOut.standing = b.ringOut.standing ∧ t.ringOut.standingReplaced = b.ringOut.standingReplaced)) ∧
      t.ingest = { b.ingest with queue := t.ingest.queue } ∧
      Frame [.now, .timing, .role, .roster, .presentation, .slots, .ringOut, .ingest, .transfer, .scan, .notices] b t

/-- The Role Controller's frame start by role (R59 to R62). Beats-missed rises by 1, up to 255. LISTENING goes on until its
count reaches 4; the fourth frame start ends it: ORIGIN for an eligible station that has missed 3 BEATs, otherwise
FOLLOWER. A FOLLOWER that is eligible claims the role once it has missed 3 BEATs, and stays FOLLOWER otherwise; ORIGIN and
STANDBY keep their roles. A claim makes the station the current origin and the lock state REFERENCE, with the slip and
holdover counts 0 (R62, R90). That LISTENING_COUNT_END is the whole frame start at which the count reaches 4 is the
model's choice (log 5). -/
def Obligations.ListeningEndsAtTheFourth : Prop :=
  ∀ (e : Elapsed) (order : FrameOrder) (c : Settings) (timer : FrameTimer) (s : State), TimerRuns e c timer s →
    let b := s.elapse e
    let missed := min 255 (b.role.beatsMissed + 1)
    let counted : RoleUnit := { b.role with beatsMissed := missed }
    let claims : Prop := c.capable = true ∧ 3 ≤ missed ∧
      ∀ y ∈ b.roster.entries, y.member = true → y.said.capable = true → c.address.toNat ≤ y.address.toNat
    let claimed (t : State) : Prop :=
      t.role =
        { counted with
          role := .origin, current := some c.address, listening := 0, claims := bump b.role.claims } ∧
      t.timing.lock = .reference ∧ t.timing.slip = 0 ∧ t.timing.holdover = 0 ∧ t.notices.getLsbD 1 = true ∧
      (b.timing.lock ≠ .reference → t.notices.getLsbD 2 = true)
    ∃ t, exec (.frameStart e order) s = .next t ∧
      (b.role.role = .listening → b.role.listening = 3 →
        exec (.listeningCountEnd e order) s = .next t ∧ (claims → claimed t) ∧
        (¬ claims → t.role = { counted with role := .follower, listening := 0 } ∧ t.notices.getLsbD 1 = true)) ∧
      (b.role.role = .listening → b.role.listening < 3 →
        t.role = { counted with listening := b.role.listening + 1 }) ∧
      (b.role.role = .follower → (claims → claimed t) ∧ (¬ claims → t.role = counted)) ∧
      (b.role.role = .origin ∨ b.role.role = .standby → t.role = counted)

/-- Every frame start counts each fault hold above 0 down by 1 (R45), and expires every outstanding entry that is 2 or more
frame starts old (R125): LOST_OWN counts them, the younger ones stay, the ring state becomes BROKEN, and RING_CHANGED is
raised if it was not. At most one own packet departs at it, where RING OUT is IDLE, and joins the tail; a full list with
nothing to expire makes room for it (R124). FAULT_HOLD_EXPIRY, where a hold stands at 1, and OUTSTANDING_EXPIRY, where an
entry is so old, are that whole frame start, and elsewhere nothing but what has passed is accounted for: the model's
choice (log 5). -/
def Obligations.HoldsAndOutstandingExpire : Prop :=
  ∀ (e : Elapsed) (order : FrameOrder) (c : Settings) (timer : FrameTimer) (s : State), TimerRuns e c timer s →
    let b := s.elapse e
    let old (o : Outstanding) : Bool := decide (2 ≤ (b.timing.frameCount + 1 - o.departed).toNat)
    let lost := b.ringOut.outstanding.countP old
    let ends : Prop := b.roster.conflictHold = 1 ∨ b.roster.mismatchHold = 1
    ∃ t, exec (.frameStart e order) s = .next t ∧
      t.roster.conflictHold = b.roster.conflictHold - 1 ∧ t.roster.mismatchHold = b.roster.mismatchHold - 1 ∧
      (ends → exec (.faultHoldExpiry e order) s = .next t) ∧
      (¬ ends → exec (.faultHoldExpiry e order) s = .next b) ∧
      (∀ o ∈ t.ringOut.outstanding, (t.timing.frameCount - o.departed).toNat < 2) ∧
      (0 < lost → exec (.outstandingExpiry e order) s = .next t ∧ t.ringOut.ring = .broken ∧
        (b.ringOut.ring ≠ .broken → t.notices.getLsbD 3 = true)) ∧
      (lost = 0 → exec (.outstandingExpiry e order) s = .next b) ∧
      (b.ringOut.sending ≠ none ∨ b.ringOut.outstanding.length < 8 ∨
          (b.ringOut.outstanding.length = 8 ∧ ∃ o rest, b.ringOut.outstanding = o :: rest ∧ old o = true) →
        t.ringOut.lostOwn = bumpBy lost b.ringOut.lostOwn ∧ (lost = 0 → t.ringOut.ring = b.ringOut.ring) ∧
        ∃ own, t.ringOut.outstanding = b.ringOut.outstanding.filter (fun o => !old o) ++ own ∧ own.length ≤ 1 ∧
          (b.ringOut.sending ≠ none → own = []) ∧ ∀ o ∈ own, o.departed = b.timing.frameCount + 1) ∧
      (b.ringOut.sending = none → 8 ≤ b.ringOut.outstanding.length → lost = 0 →
        (t.ringOut.outstanding = b.ringOut.outstanding ∧ t.ringOut.lostOwn = b.ringOut.lostOwn ∧
          t.ringOut.ring = b.ringOut.ring) ∨
        ∃ o, t.ringOut.outstanding = b.ringOut.outstanding.tail ++ [o] ∧ o.departed = b.timing.frameCount + 1 ∧
          t.ringOut.lostOwn = bump b.ringOut.lostOwn ∧ t.ringOut.ring = .broken ∧
          (b.ringOut.ring ≠ .broken → t.notices.getLsbD 3 = true))

/-- A frame start that brings timed-missed to 3 in ACQUIRING or LOCKED enters HOLDOVER (R88). In HOLDOVER each one raises
the holdover count by 1, and the one at which it reaches 16 makes the lock state FREE (R89); one at the very tick of the
departure that entered HOLDOVER is not counted (R91, read as log 13 does). A claim at the same frame start goes on to
REFERENCE with count 0 (R90). HOLDOVER_ENTRY and HOLDOVER_EXPIRY are the whole frame start that brings timed-missed to 3,
or the count to 16, and elsewhere nothing but what has passed is accounted for: the model's choice (log 5). -/
def Obligations.HoldoverEntryAndExpiry : Prop :=
  ∀ (e : Elapsed) (order : FrameOrder) (c : Settings) (timer : FrameTimer) (s : State), TimerRuns e c timer s →
    let b := s.elapse e
    let enters : Prop := (b.timing.lock = .acquiring ∨ b.timing.lock = .locked) ∧ 2 ≤ b.timing.timedMissed
    let ends : Prop := b.timing.lock = .holdover ∧ 15 ≤ b.timing.holdover
    ∃ t, exec (.frameStart e order) s = .next t ∧
      (enters → exec (.holdoverEntry e order) s = .next t) ∧ (¬ enters → exec (.holdoverEntry e order) s = .next b) ∧
      (ends → exec (.holdoverExpiry e order) s = .next t) ∧ (¬ ends → exec (.holdoverExpiry e order) s = .next b) ∧
      (let reaches (lock : Lock) (count : Nat) : Prop :=
        (t.role.role ≠ .origin → t.timing.lock = lock) ∧
          ((t.timing.lock = lock ∧ t.timing.holdover = count) ∨
            (t.timing.lock = .reference ∧ t.role.role = .origin ∧ t.timing.holdover = 0))
      (enters → reaches .holdover 0 ∧ t.timing.slip = 0 ∧ t.notices.getLsbD 2 = true ∧
        t.timing.holdoverEntries = bump b.timing.holdoverEntries) ∧
      (¬ enters → t.timing.holdoverEntries = b.timing.holdoverEntries) ∧
      (b.timing.lock = .holdover → b.timing.departedAt = some timer.next → reaches .holdover b.timing.holdover) ∧
      (b.timing.lock = .holdover → b.timing.departedAt ≠ some timer.next →
        (b.timing.holdover < 15 → reaches .holdover (b.timing.holdover + 1)) ∧
        (15 ≤ b.timing.holdover → reaches .free 0 ∧ t.notices.getLsbD 2 = true)))

/-! ### The presentation agreement -/

/-- The presentation step (R33 to R37) at a station that is not STANDBY: a decision kept, late, stale, missed or
presented. A presentation makes the slot that holds the frame SHOWN, frees the previous SHOWN slot and every COMPLETE
slot of an earlier frame, which SKIPPED counts and the complete list loses with the frame itself, and gives the scan slot
its INDEX (R14, R35, R164). At the Scan-Out Unit every fetch in progress becomes STALE, the line buffers that have a LINE
get VALID no and ask again, buffer 0 first (the order: log 26), unless a record of theirs that is not STALE waits, and an
idle frame memory grants (R162, R164). A frame start makes this step for its new epoch: what it leaves of the shown frame, the slots,
the scan slot, MISS and the counters stands after it, and the pending decision too, but at an ORIGIN, whose composition
sets it anew (R26, R28). -/
def Obligations.PresentationStepApplies : Prop :=
  (∀ s : State, s.role.role ≠ .standby →
    let p := s.presentation
    let repeats : Presentation := { p with repeated := bump p.repeated }
    let emptied (x : LineBuffer) : LineBuffer :=
      if x.line = none then x else { line := x.line, valid := false, pixels := [] }
    let staled := s.scan.records.map fun q => if q.inProgress = true then { q with stale := true } else q
    let again (k : Fin 2) (x : LineBuffer) : List FetchRecord :=
      match x.line with
      | none => []
      | some l => if ∃ q ∈ staled, q.buffer = k ∧ q.stale = false then [] else [⟨l, k, false, false⟩]
    (p.decision = none → s.presentationStep = { s with presentation := repeats }) ∧
    (∀ d, p.decision = some d → laterThan d.target s.timing.epoch = true →
      s.presentationStep = { s with presentation := repeats }) ∧
    (∀ d, p.decision = some d → d.target ≠ s.timing.epoch → laterThan d.target s.timing.epoch = false →
      s.presentationStep =
        { s with presentation := { repeats with decision := none, lateDecision := bump p.lateDecision } }) ∧
    (∀ d, p.decision = some d → d.target = s.timing.epoch →
      ((∃ g, p.shown = some g ∧ laterThan d.frame g = false) → s.presentationStep =
        { s with presentation := { repeats with decision := none, staleDecision := bump p.staleDecision } }) ∧
      ((∀ g, p.shown = some g → laterThan d.frame g = true) →
        ((∀ r ∈ s.slots.table, ¬ (r.state = .complete ∧ r.frame = some d.frame)) → s.presentationStep =
          { s with
            presentation := { repeats with decision := none, missed := bump p.missed },
            notices := s.notices ||| 0x0010#16 }) ∧
        (∀ (i : Nat) (r : Slot), s.slots.table[i]? = some r → r.state = .complete → r.frame = some d.frame →
          (∀ (j : Nat) (q : Slot), s.slots.table[j]? = some q → q.state = .complete → q.frame = some d.frame → j = i) →
          s.presentationStep.presentation =
            { p with shown := some d.frame, decision := none, presented := bump p.presented } ∧
          s.presentationStep.scan =
            { s.scan with
              slot := some i, even := emptied s.scan.even, odd := emptied s.scan.odd,
              records := s.presentationStep.scan.records } ∧
          s.presentationStep.ingest = { s.ingest with queue := s.presentationStep.ingest.queue } ∧
          Granted (some i) s.transfer (staled ++ again 0 s.scan.even ++ again 1 s.scan.odd) s.ingest.queue
            s.presentationStep ∧
          s.presentationStep.slots.table[i]? = some { r with state := .shown } ∧
          (∀ (j : Nat) (q : Slot), j ≠ i → s.slots.table[j]? = some q →
            s.presentationStep.slots.table[j]? = some
              (if q.state = .shown ∨ (q.state = .complete ∧ ∃ f, q.frame = some f ∧ laterThan d.frame f = true) then
                ⟨.free, none, [], 0, false⟩
              else q)) ∧
          s.presentationStep.slots =
            { s.slots with
              table := s.presentationStep.slots.table,
              complete := s.slots.complete.filter (fun f => decide (f ≠ d.frame ∧ laterThan d.frame f = false)),
              skipped := bumpBy
                (s.slots.table.countP fun q => decide (q.state = .complete) && q.frame.any (laterThan d.frame))
                s.slots.skipped } ∧
          Frame [.presentation, .slots, .scan, .ingest, .transfer] s s.presentationStep)))) ∧
  (∀ (e : Elapsed) (order : FrameOrder) (c : Settings) (timer : FrameTimer) (s : State), TimerRuns e c timer s →
    let b := s.elapse e
    let u := State.presentationStep { b with timing := { b.timing with epoch := b.timing.epoch + 1 } }
    ∃ t, exec (.frameStart e order) s = .next t ∧
      t.presentation =
        { u.presentation with
          decision := t.presentation.decision, decisionsMade := t.presentation.decisionsMade } ∧
      (t.role.role ≠ .origin → t.presentation = u.presentation) ∧ t.slots = u.slots ∧ t.scan.slot = u.scan.slot ∧
      t.notices.getLsbD 4 = u.notices.getLsbD 4)

/-- The decision (R22 to R25, R39). The reference is the shown frame, among those of the participants, that is later
than or equal to each, and the origin's own where there is none such (R23). The candidates are the frames that the
origin and every participant hold COMPLETE and that are later than the reference (R24); NEXT takes the earliest and
NEWEST the latest (R25), and there is a decision exactly when there is a candidate. At a frame start, behind a busy RING
OUT, an ORIGIN sets its pending decision to it for the next epoch and places the BEAT of R27, replacing one that waits
(R26, R28, R115); a station that is not ORIGIN composes nothing. Where RING OUT is IDLE and no packet waits, the composition
and the STANDING offer of a RUNNING station may reach it in either order, and the one taken first begins (R118); which one
that is, the command carries in its order (an operand: log 7). Where the composition is taken first, the BEAT departs at
once, its Delay the time that the composition takes (R123; an operand: log 14), and the STANDING waits behind it, so that no
entry ages (R46, R53). Where the offer is taken first, the STANDING begins and the BEAT waits in its place. -/
def Obligations.DecisionGuarantee : Prop :=
  (∀ (c : Settings) (s : State),
    let takesPart (x : Entry) : Prop := x.member = true ∧ (x.said.lock = .locked ∨ x.said.lock = .holdover)
    let shows (f : FrameNo) : Prop :=
      s.presentation.shown = some f ∨ ∃ x ∈ s.roster.entries, takesPart x ∧ x.said.shown = some f
    let latest (f : FrameNo) : Prop := shows f ∧ ∀ g, shows g → g = f ∨ laterThan f g = true
    (s.composed c).decision = s.decisionOf c ∧ (s.decisionOf c = none ↔ s.candidates = []) ∧
    (∀ f, latest f → s.reference = some f) ∧ ((∀ f, ¬ latest f) → s.reference = s.presentation.shown) ∧
    (∀ f, f ∈ s.candidates ↔
      f ∈ s.slots.complete ∧ (∀ x ∈ s.roster.entries, takesPart x → f ∈ x.said.list) ∧
        (∀ r, s.reference = some r → laterThan f r = true)) ∧
    (∀ f, s.decisionOf c = some f →
      f ∈ s.candidates ∧
      (s.slots.complete.Pairwise (fun g h => laterThan h g = true) → ∀ g ∈ s.candidates,
        g = f ∨ (c.policy = .next ∧ laterThan g f = true) ∨ (c.policy = .newest ∧ laterThan f g = true)))) ∧
  (∀ (e : Elapsed) (order : FrameOrder) (c : Settings) (timer : FrameTimer) (s : State), TimerRuns e c timer s →
    (s.elapse e).ringOut.sending ≠ none →
    let b := s.elapse e
    ∃ t, exec (.frameStart e order) s = .next t ∧
      (t.role.role = .origin →
        t.ringOut.beat = some (beatAtFrameStart c b t) ∧
        t.ringOut.beatReplaced =
          (if b.ringOut.beat.isSome then bump b.ringOut.beatReplaced else b.ringOut.beatReplaced) ∧
        t.presentation.decision = (t.decisionOf c).map (fun f => ⟨b.timing.epoch + 2, f⟩) ∧
        t.presentation.decisionsMade =
          (if (t.decisionOf c).isSome then bump b.presentation.decisionsMade else b.presentation.decisionsMade)) ∧
      (t.role.role ≠ .origin →
        t.ringOut.beat = b.ringOut.beat ∧ t.ringOut.beatReplaced = b.ringOut.beatReplaced ∧
        t.presentation.decisionsMade = b.presentation.decisionsMade)) ∧
  (∀ (e : Elapsed) (order : FrameOrder) (c : Settings) (timer : FrameTimer) (s : State), TimerRuns e c timer s →
    (s.elapse e).ringOut.sending = none → (s.elapse e).ringOut.queue = [] → (s.elapse e).ringOut.leave = false →
    let b := s.elapse e
    let period := c.lineTicks * (c.vb + c.h)
    ∃ t, exec (.frameStart e order) s = .next t ∧
      (order.composeTicks.toNat ≤ period → period < 2147483648 → t.role.role = .origin →
        t.now = timer.next + order.composeTicks) ∧
      (t.role.role = .origin →
        let beat := beatAtFrameStart c b t
        let delay := (t.now - timer.next).toNat
        let standingFirst : Prop :=
          s.loader.station = .running ∧ FramePart.before order.taken .offer .compose = true
        t.ringOut.sequence = b.ringOut.sequence + 1 ∧ t.ringOut.localSent = bump b.ringOut.localSent ∧
        t.presentation.decision = (t.decisionOf c).map (fun f => ⟨b.timing.epoch + 2, f⟩) ∧
        t.presentation.decisionsMade =
          (if (t.decisionOf c).isSome then bump b.presentation.decisionsMade else b.presentation.decisionsMade) ∧
        (¬ standingFirst →
          t.ringOut.beat = none ∧
          t.ringOut.sending =
            (ownSent c .beat (BitVec.ofNat 16 (min 65535 delay)) beat.payload b).ringOut.sending ∧
          t.ringOut.delayCapped =
            (if 65535 ≤ delay then bump b.ringOut.delayCapped else b.ringOut.delayCapped) ∧
          t.roster.entries = b.roster.entries ∧ t.roster.ownSequence = b.roster.ownSequence ∧
          t.ringOut.standing = (decide (s.loader.station = .running) || b.ringOut.standing)) ∧
        (standingFirst → b.ringOut.beat = none →
          (∃ x, t.ringOut.sending = some x ∧ x.source = .own .standing) ∧ t.ringOut.beat = some beat ∧
          t.ringOut.beatReplaced = b.ringOut.beatReplaced ∧ t.ringOut.delayCapped = b.ringOut.delayCapped ∧
          t.ringOut.standing = false)))

/-! ### Scan-out and frame memory -/

/-- The line start of an active line outputs its buffer, or background with an underrun counted where a scan slot is
present, and clears the fetch of a line so lost; it releases the buffer and requests the fetch of the line after next
into it (R165, R168). The fetches of active lines 0 and 1 are requested at the starts of frame lines VB - 2 and VB - 1
(R165); a request with a scan slot present joins the records and may be granted at once (R162). Another blanking line
before the active ones changes nothing here, and one after them puts background out. That LINE_START is the start of the
line after the one in progress, which falls before the next frame start, and takes station time to that start where it has
not come so far, is the model's choice (log 12).

The panel port of a line (R170), in W-ths of a tick from its start: horizontal sync over its first sixteenth, vertical sync
over frame lines 0 and 1, data enable and the W pixels of the output line over the active window of an active line, and 0 on
the data lines elsewhere; without a frame timer every output is low and the clock stopped. That horizontal sync is high
there, that the pixels share the whole window evenly, and the 0 before the window are the model's choice (log 17). -/
def Obligations.LineStartOutputsLine : Prop :=
  (∀ (e : Elapsed) (c : Settings) (timer : FrameTimer) (s : State), s.held = false →
    (s.elapse e).loader.settled = some c → (s.elapse e).timing.timer = some timer →
    (timer.line + 1) * c.lineTicks < (timer.next - timer.last).toNat →
    let b := s.elapse e
    let requested (k : Nat) (records : List FetchRecord) : List FetchRecord :=
      if b.scan.slot = none then records else records ++ [⟨k, if k % 2 = 0 then 0 else 1, false, false⟩]
    ∃ t, exec (.lineStart e) s = .next t ∧
      t.timing = { b.timing with timer := some { timer with line := timer.line + 1 } } ∧
      t.now =
        (if (b.now - timer.last).toNat < (timer.line + 1) * c.lineTicks then
          timer.last + BitVec.ofNat 32 ((timer.line + 1) * c.lineTicks)
        else b.now) ∧
      t.ingest = { b.ingest with queue := t.ingest.queue } ∧
      Frame [.now, .timing, .ingest, .transfer, .scan] b t ∧
      (∀ k, timer.line + 1 = c.vb + k → k < c.h →
        let x := if k % 2 = 0 then b.scan.even else b.scan.odd
        let ready : Prop := x.line = some k ∧ x.valid = true
        let next : LineBuffer := ⟨if k + 2 < c.h then some (k + 2) else none, false, []⟩
        let kept : List FetchRecord :=
          if ready ∨ b.scan.slot = none then b.scan.records
          else b.scan.records.filterMap fun r =>
            if r.line = k ∧ r.buffer = (if k % 2 = 0 then 0 else 1) ∧ r.stale = false then
              if r.inProgress = true then some { r with stale := true } else none
            else some r
        t.scan =
          { b.scan with
            even := if k % 2 = 0 then next else b.scan.even, odd := if k % 2 = 0 then b.scan.odd else next,
            output := if ready then .pixels x.pixels else .background,
            underrun := if ready ∨ b.scan.slot = none then b.scan.underrun else bump b.scan.underrun,
            records := t.scan.records } ∧
        (k + 2 < c.h → Granted b.scan.slot b.transfer (requested (k + 2) kept) b.ingest.queue t) ∧
        (c.h ≤ k + 2 → t.scan.records = kept ∧ t.transfer = b.transfer ∧ t.ingest = b.ingest)) ∧
      (∀ k, k < 2 → timer.line + 1 + 2 = c.vb + k →
        t.scan =
          { b.scan with
            even := if k = 0 then ⟨some 0, false, []⟩ else b.scan.even,
            odd := if k = 0 then b.scan.odd else ⟨some 1, false, []⟩, records := t.scan.records } ∧
        Granted b.scan.slot b.transfer (requested k b.scan.records) b.ingest.queue t) ∧
      (timer.line + 1 + 2 < c.vb → t.scan = b.scan ∧ t.transfer = b.transfer ∧ t.ingest = b.ingest) ∧
      (c.vb + c.h ≤ timer.line + 1 →
        t.scan = { b.scan with output := .background } ∧ t.transfer = b.transfer ∧ t.ingest = b.ingest)) ∧
  (∀ (c : Settings) (timer : FrameTimer) (part : Nat) (s : State), s.loader.settled = some c →
    s.timing.timer = some timer →
    let port := s.panel part
    let into := ((s.now - timer.last).toNat - timer.line * c.lineTicks) * c.w + part
    let first := c.lineTicks / 8 * c.w
    let share := c.lineTicks - c.lineTicks / 8
    let active : Prop := c.vb ≤ timer.line ∧ timer.line < c.vb + c.h
    port.pixelClock = true ∧ (port.hsync = true ↔ into < c.lineTicks / 16 * c.w) ∧
    (port.vsync = true ↔ timer.line < 2) ∧
    (port.dataEnable = true ↔ active ∧ first ≤ into ∧ into < c.lineTicks * c.w) ∧
    (port.dataEnable = false → port.data = 0) ∧
    (∀ j k, active → j < c.w → k < share → into = first + j * share + k →
      port.dataEnable = true ∧ (s.scan.output.sent c)[j]? = some port.data)) ∧
  (∀ (part : Nat) (s : State), s.loader.settled = none ∨ s.timing.timer = none →
    s.panel part = ⟨false, false, false, false, 0⟩) ∧
  (∀ (c : Settings) (pixels : List Pixel),
    OutputLine.background.sent c = List.replicate c.w c.background ∧
    (pixels.length = c.w → (OutputLine.pixels pixels).sent c = pixels))

/-- The completion of a line write stores the W pixels at line l of region s, three bytes a pixel, red first, and
nothing else (R161); the Slot Manager records it by the slot's state when it is taken (R12), evicting the oldest
unpinned frame where every slot has become COMPLETE (R13); and the next transfer is granted (R162, R163). -/
def Obligations.WriteCompletionStoresLine : Prop :=
  (∀ (e : Elapsed) (c : Settings) (w : LineWrite) (s : State), s.held = false →
    (s.elapse e).transfer = some (.write w) → (s.elapse e).loader.settled = some c → w.pixels.length = c.w →
    let b := s.elapse e
    let first := w.slot * (c.w * c.h * 3) + w.line * (c.w * 3)
    first + c.w * 3 ≤ 33554432 →
    ∃ t, exec (.transferComplete e) s = .next t ∧
      (∀ a, a < first ∨ first + c.w * 3 ≤ a → Memory.read t.mem a = Memory.read b.mem a) ∧
      (∀ (j : Nat) (p : Pixel), w.pixels[j]? = some p →
        Memory.read t.mem (first + 3 * j) = p.extractLsb' 16 8 ∧
        Memory.read t.mem (first + 3 * j + 1) = p.extractLsb' 8 8 ∧
        Memory.read t.mem (first + 3 * j + 2) = p.extractLsb' 0 8) ∧
      t.slots = b.slots.writeDone (b.presentation.decision.map Decision.frame) w.slot w.line ∧
      t.ingest = { b.ingest with queue := t.ingest.queue } ∧ t.scan = { b.scan with records := t.scan.records } ∧
      Granted b.scan.slot none b.scan.records b.ingest.queue t ∧
      Frame [.mem, .slots, .ingest, .transfer, .scan] b t) ∧
  (∀ (pin : Option FrameNo) (i line : Nat) (r : Slot) (m : SlotManager), m.table[i]? = some r →
    let done : SlotManager :=
      { m with
        table := m.table.set i { r with state := .complete, written := insertLine line r.written, pending := 0 },
        complete := m.complete ++ r.frame.toList, framesCompleted := bump m.framesCompleted }
    (r.state = .filling → m.writeDone pin i line =
      { m with table := m.table.set i { r with written := insertLine line r.written, pending := r.pending - 1 } }) ∧
    (r.state = .closing → 1 < r.pending → m.writeDone pin i line =
      { m with table := m.table.set i { r with written := insertLine line r.written, pending := r.pending - 1 } }) ∧
    (r.state = .closing → r.pending = 1 →
      (∃ (j : Nat) (q : Slot), j ≠ i ∧ m.table[j]? = some q ∧ q.state ≠ .complete) → m.writeDone pin i line = done) ∧
    (∀ (f : FrameNo) (k : Nat), r.state = .closing → r.pending = 1 →
      (∀ (j : Nat) (q : Slot), j ≠ i → m.table[j]? = some q → q.state = .complete) → OldestUnpinned pin done f k →
      m.writeDone pin i line = evictedAt f k done) ∧
    (r.state = .draining → m.writeDone pin i line = { m with table := m.table.set i ⟨.free, none, [], 0, false⟩ })) ∧
  (∀ (n : Nat) (lines : List Nat),
    (∀ l, l ∈ insertLine n lines ↔ l = n ∨ l ∈ lines) ∧
    (lines.Pairwise (· < ·) → (insertLine n lines).Pairwise (· < ·)))

/-- The completion of a fetch stores the line of the fetched slot in the buffer that still waits for it, and is
otherwise discarded (R161, R166); its record is gone, and the next transfer is granted (R162, R163). -/
def Obligations.FetchCompletionFillsBuffer : Prop :=
  ∀ (e : Elapsed) (c : Settings) (slot line : Nat) (r : FetchRecord) (s : State), s.held = false →
    (s.elapse e).transfer = some (.fetch slot line) → (s.elapse e).loader.settled = some c →
    slot * (c.w * c.h * 3) + line * (c.w * 3) + c.w * 3 ≤ 33554432 →
    (s.elapse e).scan.records.find? (fun x => x.inProgress) = some r →
    let b := s.elapse e
    let first := slot * (c.w * c.h * 3) + line * (c.w * 3)
    let buffer (t : State) := if r.buffer = 0 then t.scan.even else t.scan.odd
    let other (t : State) := if r.buffer = 0 then t.scan.odd else t.scan.even
    ∃ t, exec (.transferComplete e) s = .next t ∧
      (r.stale = false → (buffer b).line = some r.line →
        t.scan.fetches = bump b.scan.fetches ∧ t.scan.staleFetch = b.scan.staleFetch ∧
        (buffer t).line = some r.line ∧ (buffer t).valid = true ∧ (buffer t).pixels.length = c.w ∧
        (∀ (j : Nat) (p : Pixel), (buffer t).pixels[j]? = some p →
          p = Memory.read b.mem (first + 3 * j) ++ Memory.read b.mem (first + 3 * j + 1) ++
            Memory.read b.mem (first + 3 * j + 2))) ∧
      (r.stale = true ∨ (buffer b).line ≠ some r.line →
        t.scan.staleFetch = bump b.scan.staleFetch ∧ t.scan.fetches = b.scan.fetches ∧
        t.scan.even = b.scan.even ∧ t.scan.odd = b.scan.odd) ∧
      other t = other b ∧ t.scan.slot = b.scan.slot ∧ t.scan.output = b.scan.output ∧
      t.scan.underrun = b.scan.underrun ∧ t.scan.cutFrames = b.scan.cutFrames ∧
      t.ingest = { b.ingest with queue := t.ingest.queue } ∧
      Granted b.scan.slot none (b.scan.records.erase r) b.ingest.queue t ∧ Frame [.ingest, .transfer, .scan] b t

/-! ### Source link reception -/

/-- Loss of signal and signal present on the forward lane (R131, R132). A frame in hand at the loss is ended: one in
progress is abandoned with ABANDONED_FRAME and INGEST_ERROR, and the discarding of one ends without a count (R157). That
the lane's signal is followed in CONFIGURING and DOWN too, where the receiver takes neither event, is the model's choice
(log 9). -/
def Obligations.LinkSignal : Prop :=
  (∀ (e : Elapsed) (s : State), s.held = false → (s.elapse e).loader.station ≠ .configuring →
    (s.elapse e).link.state ≠ .down →
    ((s.elapse e).ingest.state = .inFrame → (s.elapse e).ingest.slot.isSome = true) →
    let lost : State :=
      { s.elapse e with
        link :=
          { (s.elapse e).link with
            signal := false, state := .down, packet := none, signalLost := bump (s.elapse e).link.signalLost },
        notices := (s.elapse e).notices ||| 0x0020#16 }
    exec (.linkLossOfSignal e) s = .next
      (if lost.ingest.state = .discarding then { lost with ingest := frameLeft lost.ingest } else endedEarly lost)) ∧
  (∀ (e : Elapsed) (s : State), s.held = false →
    ((s.elapse e).loader.station = .configuring ∨ (s.elapse e).link.state = .down) →
    exec (.linkLossOfSignal e) s = .next { s.elapse e with link := { (s.elapse e).link with signal := false } }) ∧
  (∀ (e : Elapsed) (s : State), s.held = false →
    exec (.linkSignalPresent e) s = .next
      { s.elapse e with
        link :=
          { (s.elapse e).link with
            signal := true,
            state :=
              if (s.elapse e).loader.station ≠ .configuring ∧ (s.elapse e).link.state = .down then .hunt
              else (s.elapse e).link.state } })

/-- A start marker begins a packet and cuts one in reception; fill cuts one in reception (R133, R134). A packet cut in
the skip that follows an UNKNOWN_KIND or LENGTH_BAD count is not counted again. Ten bits received on the forward lane act
by the symbol that they are taken as (R190): a start marker, fill, or a data byte, which ends the header, the LINE or the
skip in reception, joins what is collected, or is counted off. That LINK_HEADER_TAKEN of an eighth byte has the effect of
the header's bytes, whatever their kind, is the model's choice (log 4). -/
def Obligations.LinkFraming : Prop :=
  (∀ (e : Elapsed) (s : State), s.held = false →
    let b := s.elapse e
    let counts : Prop :=
      ∃ p, b.link.packet = some p ∧ (b.link.state = .skip → ∃ h, p.header = some h ∧ h.kind = 0x13#8)
    (b.link.state ≠ .down →
      (counts → exec (.linkStartMarker e) s = .next
        { b with
          link :=
            { b.link with
              state := .header, packet := some ⟨[], none, 0⟩, truncated := bump b.link.truncated },
          notices := b.notices ||| 0x0020#16 }) ∧
      (¬ counts → exec (.linkStartMarker e) s = .next
        { b with link := { b.link with state := .header, packet := some ⟨[], none, 0⟩ } })) ∧
    (counts → exec (.linkFill e) s = .next
      { b with
        link := { b.link with state := .hunt, packet := none, truncated := bump b.link.truncated },
        notices := b.notices ||| 0x0020#16 }) ∧
    (¬ counts → exec (.linkFill e) s = .next
      (if b.link.packet.isSome then { b with link := { b.link with state := .hunt, packet := none } } else b))) ∧
  (∀ (e : Elapsed) (code : BitVec 2) (bits : Byte) (s : State), s.held = false →
    let b := s.elapse e
    let t := b.linkReceives (serialBits code bits)
    (takeSymbol code bits = .startMarker → exec (.linkStartMarker e) s = .next t) ∧
    (takeSymbol code bits = .fill → exec (.linkFill e) s = .next t) ∧
    (∀ x, takeSymbol code bits = .data x →
      (b.link.packet = none → t = b) ∧
      (∀ p, b.link.packet = some p →
        (p.header = none → p.taken.length = 7 → exec (.linkHeaderTaken e [x]) s = .next t) ∧
        (p.header = none → p.taken.length < 7 →
          t = { b with link := { b.link with packet := some { p with taken := p.taken ++ [x] } } }) ∧
        (∀ h, p.header = some h →
          (p.remaining ≤ 1 → b.link.state = .payload → exec (.line e [x]) s = .next t) ∧
          (p.remaining ≤ 1 → b.link.state = .skip → exec (.skipLastByte e) s = .next t) ∧
          (1 < p.remaining → t =
            { b with
              link :=
                { b.link with
                  packet := some
                    { p with
                      taken := if b.link.state = .payload then p.taken ++ [x] else p.taken,
                      remaining := p.remaining - 1 } } })))))

/-- The headers that the Source Link Receiver refuses: uncorrectable (R135), Length above 8,192 (R136), of unknown kind
(R137), with a Length that the kind does not take (R138). Each counts once and raises LINK_ERROR; a payload is skipped
by its Length, but for Length above 8,192. The kinds are those of the table of 13.5. -/
def Obligations.LinkHeaderErrors : Prop :=
  (∀ code : Byte, LinkKind.ofCode code =
    ([(0x10#8, .frameBegin), (0x11#8, .line), (0x12#8, .frameEnd), (0x13#8, .filler), (0x20#8, .poll), (0x21#8, .clear),
      (0x22#8, .linkReset), (0x23#8, .withdraw), (0x24#8, .rejoin)] : List (Byte × LinkKind)).lookup code) ∧
  (∀ (e : Elapsed) (rest : List Byte) (p : LinkRxPacket) (s : State), s.held = false →
    (s.elapse e).link.packet = some p → p.header = none → (p.taken ++ rest).length = 8 →
    checkHeader (p.taken ++ rest) = .bad →
    exec (.linkHdrBad e rest) s = .next
      { s.elapse e with
        link := { (s.elapse e).link with
          state := .hunt, packet := none, hdrBad := bump (s.elapse e).link.hdrBad },
        notices := (s.elapse e).notices ||| 0x0020#16 }) ∧
  (∀ (e : Elapsed) (rest : List Byte) (fixed : Bool) (h : LinkHeader) (s : State), LinkHeaderIn e rest fixed h s →
    let b := linkBase e fixed s
    let skipped : LinkReceiver :=
      if h.length = 0 then { b.link with state := .hunt, packet := none }
      else { b.link with state := .skip, packet := some ⟨[], some h, h.length.toNat + 2⟩ }
    (8192 < h.length.toNat → exec (.linkLengthBad e rest) s = .next
      { b with
        link := { b.link with state := .hunt, packet := none, lengthBad := bump b.link.lengthBad },
        notices := b.notices ||| 0x0020#16 }) ∧
    (h.length.toNat ≤ 8192 → LinkKind.ofCode h.kind = none → exec (.unknownKind e rest) s = .next
      { b with
        link := { skipped with unknownKind := bump b.link.unknownKind },
        notices := b.notices ||| 0x0020#16 }) ∧
    (h.length.toNat ≤ 8192 → (∃ k, LinkKind.ofCode h.kind = some k ∧ k ≠ .filler ∧ (k = .line ↔ h.length = 0)) →
      exec (.linkLengthBad e rest) s = .next
        { b with
          link := { skipped with lengthBad := bump b.link.lengthBad },
          notices := b.notices ||| 0x0020#16 }))

/-- FILLER is padding: with Length 0 it completes at its header, otherwise its payload and CRC are skipped, and the byte
that ends the skip counts PACKETS_TAKEN; the end of another packet's skip counts nothing (R139). That SKIP_LAST_BYTE ends
the skip whatever REMAINING was, the bytes still missing going with it, is the model's choice (log 3). The header of a
LINE with Length 1 to 8,192 moves the receiver to PAYLOAD; a LINE whose CRC fails at its last byte is dropped with
CRC_BAD and LINK_ERROR (R140). -/
def Obligations.FillerLineAndSkip : Prop :=
  ((∀ (e : Elapsed) (rest : List Byte) (fixed : Bool) (h : LinkHeader) (s : State), LinkHeaderIn e rest fixed h s →
    h.kind = 0x13#8 → h.length.toNat ≤ 8192 →
    let b := linkBase e fixed s
    exec (.filler e rest) s = .next
      { b with
        link :=
          if h.length = 0 then
            { b.link with state := .hunt, packet := none, packetsTaken := bump b.link.packetsTaken }
          else { b.link with state := .skip, packet := some ⟨[], some h, h.length.toNat + 2⟩ } }) ∧
  (∀ (e : Elapsed) (p : LinkRxPacket) (h : LinkHeader) (s : State), s.held = false →
    (s.elapse e).link.state = .skip → (s.elapse e).link.packet = some p → p.header = some h →
    exec (.skipLastByte e) s = .next
      { s.elapse e with
        link :=
          { (s.elapse e).link with
            state := .hunt, packet := none,
            packetsTaken :=
              if h.kind = 0x13#8 then bump (s.elapse e).link.packetsTaken
              else (s.elapse e).link.packetsTaken } })) ∧
  ((∀ (e : Elapsed) (rest : List Byte) (fixed : Bool) (h : LinkHeader) (s : State), LinkHeaderIn e rest fixed h s →
    h.kind = 0x11#8 → 1 ≤ h.length.toNat → h.length.toNat ≤ 8192 →
    let b := linkBase e fixed s
    exec (.linkHeaderTaken e rest) s = .next
      { b with
        link := { b.link with state := .payload, packet := some ⟨[], some h, h.length.toNat + 2⟩ } }) ∧
  (∀ (e : Elapsed) (rest : List Byte) (p : LinkRxPacket) (h : LinkHeader) (s : State), s.held = false →
    (s.elapse e).link.state = .payload → (s.elapse e).link.packet = some p → p.header = some h →
    (p.taken ++ rest).length = h.length.toNat + 2 → crcGood h.length.toNat (p.taken ++ rest) = false →
    exec (.line e rest) s = .next
      { s.elapse e with
        link :=
          { (s.elapse e).link with state := .hunt, packet := none, crcBad := bump (s.elapse e).link.crcBad },
        notices := (s.elapse e).notices ||| 0x0020#16 }))

/-- In CONFIG_FAULT a frame packet, a good LINE among them, a WITHDRAW or a REJOIN that completes is dropped:
PACKETS_TAKEN and NOT_CONFIGURED rise, and nothing else changes (R141). -/
def Obligations.ConfigFaultDropsPackets : Prop :=
  (∀ (e : Elapsed) (rest : List Byte) (fixed : Bool) (h : LinkHeader) (s : State), LinkHeaderIn e rest fixed h s →
    s.loader.station = .configFault → h.length = 0 →
    let b := linkBase e fixed s
    let dropped : Host.Outcome State Fault Refusal := .next
      { b with
        link :=
          { b.link with
            state := .hunt, packet := none, packetsTaken := bump b.link.packetsTaken,
            notConfigured := bump b.link.notConfigured } }
    (h.kind = 0x10#8 → exec (.frameBegin e rest) s = dropped) ∧ (h.kind = 0x12#8 → exec (.frameEnd e rest) s = dropped) ∧
    (h.kind = 0x23#8 → exec (.withdraw e rest) s = dropped) ∧
    (h.kind = 0x24#8 → exec (.rejoin e rest) s = dropped)) ∧
  (∀ (e : Elapsed) (rest body : List Byte) (h : LinkHeader) (s : State), LineIn e rest h body s →
    s.loader.station = .configFault → crcGood h.length.toNat body = true →
    let b := s.elapse e
    exec (.line e rest) s = .next
      { b with
        link :=
          { b.link with
            state := .hunt, packet := none, packetsTaken := bump b.link.packetsTaken,
            notConfigured := bump b.link.notConfigured } })

/-! ### Frames from the source -/

/-- FRAME_BEGIN N (R146 to R148): a frame in progress is first ended, its slot abandoned, with ABANDONED_FRAME and
INGEST_ERROR; then a stale N and a refused claim go to DISCARDING, an answered claim to IN_FRAME in the slot answered. -/
def Obligations.FrameBeginClaims : Prop :=
  ∀ (e : Elapsed) (rest : List Byte) (fixed : Bool) (h : LinkHeader) (c : Settings) (s : State),
    LinkHeaderIn e rest fixed h s → h.kind = 0x10#8 → h.length = 0 → (s.elapse e).active = some c →
    ((s.elapse e).ingest.state = .inFrame → (s.elapse e).ingest.slot.isSome = true) →
    let b := endedEarly (linkBase e fixed s)
    let taken : State := { b with link := linkTaken b.link }
    let stale : Prop :=
      (∃ f, b.presentation.shown = some f ∧ laterThan h.a f = false) ∨
      (∃ r ∈ b.slots.table, (r.state = .filling ∨ r.state = .closing ∨ r.state = .complete) ∧
        ∃ f, r.frame = some f ∧ laterThan h.a f = false)
    let refused : Assembler :=
      { b.ingest with
        state := .discarding, frame := some h.a, slot := none, accounted := [], openLine := none, buffer := [] }
    (stale → exec (.frameBegin e rest) s = .next
      { taken with
        ingest := { refused with staleFrame := bump b.ingest.staleFrame },
        notices := b.notices ||| 0x0040#16 }) ∧
    (¬ stale → b.slots.claim h.a (b.presentation.decision.map Decision.frame) = none →
      exec (.frameBegin e rest) s = .next
        { taken with
          ingest := { refused with noSlotDrop := bump b.ingest.noSlotDrop },
          notices := b.notices ||| 0x0040#16 }) ∧
    (∀ i m, ¬ stale → b.slots.claim h.a (b.presentation.decision.map Decision.frame) = some (i, m) →
      exec (.frameBegin e rest) s = .next
        { taken with
          slots := m,
          ingest :=
            { refused with state := .inFrame, slot := some i, framesBegun := bump b.ingest.framesBegun } })

/-- The claim (R7, R8): the FREE slot of lowest INDEX, otherwise the slot of the oldest unpinned COMPLETE frame, which
is evicted, otherwise none; the claimed record is FILLING with the frame, and no other record changes. -/
def Obligations.ClaimTakesLowestFreeSlot : Prop :=
  ∀ (n : FrameNo) (pin : Option FrameNo) (m : SlotManager),
    (∀ (i : Nat) (r : Slot), m.table[i]? = some r → r.state = .free →
      (∀ (j : Nat) (q : Slot), j < i → m.table[j]? = some q → q.state ≠ .free) →
      m.claim n pin = some (i, { m with table := m.table.set i ⟨.filling, some n, [], 0, false⟩ })) ∧
    ((∀ r ∈ m.table, r.state ≠ .free) → (∀ f ∈ m.complete, pin = some f) → m.claim n pin = none) ∧
    (∀ (f : FrameNo) (i : Nat) (r : Slot), (∀ q ∈ m.table, q.state ≠ .free) → f ∈ m.complete → pin ≠ some f →
      (m.complete.head? = some f ∨ (m.complete.head? = pin ∧ m.complete[1]? = some f)) →
      m.table[i]? = some r → r.state = .complete → r.frame = some f →
      (∀ (j : Nat) (q : Slot), j < i → m.table[j]? = some q → ¬ (q.state = .complete ∧ q.frame = some f)) →
      m.claim n pin = some
        (i,
          { m with
            table := m.table.set i ⟨.filling, some n, [], 0, false⟩, complete := m.complete.erase f,
            evicted := bump m.evicted }))

/-- A LINE within range, of whole groups and inside the line's last group (R149, R150), that opens a line at pixel 0 or
continues the open one (R152); an open line of another number is first abandoned. Its pixels join the line buffer, an
opening of an accounted line counts DUPLICATE_LINE (R153), and short of W pixels the line stays open. A whole line with a
write place free joins the write queue, the accounted set and PENDING, and an idle frame memory grants (R154, R162); with
all four places held it is dropped and the slot is DAMAGED. That a duplicate so dropped stays in the accounted set is the
model's choice (log 28). -/
def Obligations.WholeLineIsQueued : Prop :=
  ∀ (e : Elapsed) (rest body : List Byte) (h : LinkHeader) (c : Settings) (i : Nat) (s : State), LineIn e rest h body s →
    crcGood h.length.toNat body = true → (s.elapse e).active = some c → (s.elapse e).ingest.state = .inFrame →
    (s.elapse e).ingest.slot = some i → h.a.toNat < c.h → h.b.toNat < c.w →
    h.length.toNat % c.format.groupBytes = 0 → h.b.toNat % c.format.groupPixels = 0 →
    let count := h.length.toNat / c.format.groupBytes * c.format.groupPixels
    h.b.toNat + count ≤ (c.w + c.format.groupPixels - 1) / c.format.groupPixels * c.format.groupPixels →
    let b := placedAt i h.a.toNat (s.elapse e)
    let opens : Prop := b.ingest.openLine = none ∧ h.b = 0
    (opens ∨ b.ingest.openLine = some ⟨h.a.toNat, h.b.toNat⟩) →
    let pixels := convertPixels c.format (body.take h.length.toNat)
    let line := if b.ingest.openLine = none then pixels else b.ingest.buffer ++ pixels
    let base : Assembler :=
      { b.ingest with
        duplicateLine :=
          if b.ingest.openLine = none ∧ h.a.toNat ∈ b.ingest.accounted then bump b.ingest.duplicateLine
          else b.ingest.duplicateLine }
    let taken : State := { b with link := linkTaken b.link }
    pixels.length = count ∧
    (h.b.toNat + count < c.w → exec (.line e rest) s = .next
      { taken with
        ingest := { base with openLine := some ⟨h.a.toNat, h.b.toNat + count⟩, buffer := line } }) ∧
    (c.w ≤ h.b.toNat + count → (writesHeld b).length < 4 → ∃ t, exec (.line e rest) s = .next t ∧
      t.link = taken.link ∧ t.notices = b.notices ∧
      t.ingest =
        { base with
          openLine := none, buffer := [], queue := t.ingest.queue, linesQueued := bump b.ingest.linesQueued,
          accounted := insertLine h.a.toNat b.ingest.accounted } ∧
      t.slots =
        { b.slots with table := b.slots.table.modify i fun r => { r with pending := r.pending + 1 } } ∧
      t.scan = { b.scan with records := t.scan.records } ∧
      Granted b.scan.slot b.transfer b.scan.records (b.ingest.queue ++ [⟨i, h.a.toNat, line.take c.w⟩]) t ∧
      Frame [.link, .ingest, .slots, .scan, .transfer] b t) ∧
    (c.w ≤ h.b.toNat + count → 4 ≤ (writesHeld b).length → exec (.line e rest) s = .next
      { taken with
        ingest := { base with openLine := none, buffer := [], queueFullDrop := bump b.ingest.queueFullDrop },
        slots := damagedAt i b.slots, notices := b.notices ||| 0x0040#16 })

/-- A LINE outside a frame is an orphan (R149); in DISCARDING it is dropped without a count; in a frame, a segment out
of range is a RANGE error (R149), one that is not whole groups, or not aligned to a group, a FORMAT error that leaves the
slot as it is, and one past the line's last group a RANGE error (R150). A segment that does not stand at pixel 0, with no
line open, or at the next pixel of the open line is an ORDER error, which abandons the open line (R152). -/
def Obligations.LineErrors : Prop :=
  ∀ (e : Elapsed) (rest body : List Byte) (h : LinkHeader) (c : Settings) (s : State), LineIn e rest h body s →
    crcGood h.length.toNat body = true → (s.elapse e).active = some c →
    let b := s.elapse e
    let taken : State := { b with link := linkTaken b.link }
    let ranged (i : Nat) : State :=
      { taken with
        ingest := { b.ingest with rangeError := bump b.ingest.rangeError }, slots := damagedAt i b.slots,
        notices := b.notices ||| 0x0040#16 }
    let misplaced : Prop :=
      h.length.toNat % c.format.groupBytes ≠ 0 ∨ h.b.toNat % c.format.groupPixels ≠ 0
    let reach := h.b.toNat + h.length.toNat / c.format.groupBytes * c.format.groupPixels
    let groups := (c.w + c.format.groupPixels - 1) / c.format.groupPixels * c.format.groupPixels
    (b.ingest.state = .noFrame → exec (.line e rest) s = .next
      { taken with
        ingest := { b.ingest with orphanLine := bump b.ingest.orphanLine },
        notices := b.notices ||| 0x0040#16 }) ∧
    (b.ingest.state = .discarding → exec (.line e rest) s = .next taken) ∧
    (∀ i, b.ingest.state = .inFrame → b.ingest.slot = some i → (c.h ≤ h.a.toNat ∨ c.w ≤ h.b.toNat) →
      exec (.line e rest) s = .next (ranged i)) ∧
    (b.ingest.state = .inFrame → h.a.toNat < c.h → h.b.toNat < c.w → misplaced →
      exec (.line e rest) s = .next
        { taken with
          ingest := { b.ingest with formatError := bump b.ingest.formatError },
          notices := b.notices ||| 0x0040#16 }) ∧
    (∀ i, b.ingest.state = .inFrame → b.ingest.slot = some i → h.a.toNat < c.h → h.b.toNat < c.w → ¬ misplaced →
      (groups < reach → exec (.line e rest) s = .next (ranged i)) ∧
      (reach ≤ groups →
        let p := placedAt i h.a.toNat b
        (p.ingest.openLine = none → h.b ≠ 0 → exec (.line e rest) s = .next
          { p with
            link := taken.link, ingest := { p.ingest with orderError := bump p.ingest.orderError },
            slots := damagedAt i p.slots, notices := p.notices ||| 0x0040#16 }) ∧
        (∀ o, p.ingest.openLine = some o → h.b.toNat ≠ o.next → exec (.line e rest) s = .next
          { taken with
            ingest :=
              { b.ingest with
                orderError := bump b.ingest.orderError, openLine := none, buffer := [],
                lineAbandoned := bump b.ingest.lineAbandoned },
            slots := damagedAt i b.slots, notices := b.notices ||| 0x0040#16 })))

/-- FRAME_END of the frame being filled (R10, R156): with DAMAGED no and every line accounted for the slot becomes CLOSING
while writes are pending, and COMPLETE at once when none is, evicting the oldest unpinned frame where every slot has
become COMPLETE (R13); otherwise, and with a line open, which is abandoned (R152), the frame is abandoned (R11) and counted
incomplete. The other cases end the frame or the discarding as R156 lists. -/
def Obligations.FrameEndCloses : Prop :=
  ∀ (e : Elapsed) (rest : List Byte) (fixed : Bool) (h : LinkHeader) (c : Settings) (s : State),
    LinkHeaderIn e rest fixed h s → h.kind = 0x12#8 → h.length = 0 → (s.elapse e).active = some c →
    let b := linkBase e fixed s
    let taken : State := { b with link := linkTaken b.link }
    let left := frameLeft b.ingest
    let mismatched : State :=
      { taken with
        ingest := { left with frameMismatch := bump b.ingest.frameMismatch }, notices := b.notices ||| 0x0040#16 }
    (∀ i r, b.ingest.state = .inFrame → b.ingest.frame = some h.a → b.ingest.slot = some i →
      b.slots.table[i]? = some r →
      let done : SlotManager :=
        { b.slots with
          table := b.slots.table.set i { r with state := .complete }, complete := b.slots.complete ++ r.frame.toList,
          framesCompleted := bump b.slots.framesCompleted }
      let good : Prop :=
        b.ingest.openLine = none ∧ r.damaged = false ∧ b.ingest.accounted = List.range c.h
      (good → 0 < r.pending → exec (.frameEnd e rest) s = .next
        { taken with
          ingest := left,
          slots := { b.slots with table := b.slots.table.set i { r with state := .closing } } }) ∧
      (good → r.pending = 0 →
        (∃ (j : Nat) (q : Slot), j ≠ i ∧ b.slots.table[j]? = some q ∧ q.state ≠ .complete) →
        exec (.frameEnd e rest) s = .next { taken with ingest := left, slots := done }) ∧
      (∀ f k, good → r.pending = 0 →
        (∀ (j : Nat) (q : Slot), j ≠ i → b.slots.table[j]? = some q → q.state = .complete) →
        OldestUnpinned (b.presentation.decision.map Decision.frame) done f k →
        exec (.frameEnd e rest) s = .next { taken with ingest := left, slots := evictedAt f k done }) ∧
      (¬ good → exec (.frameEnd e rest) s = .next
        { taken with
          ingest :=
            { left with
              queue := b.ingest.queue.filter (fun w => w.slot != i),
              lineAbandoned :=
                if b.ingest.openLine = none then b.ingest.lineAbandoned else bump b.ingest.lineAbandoned,
              incompleteFrame := bump b.ingest.incompleteFrame },
          slots :=
            { b.slots with
              table := b.slots.table.set i (abandonedRecord (b.writing i)
                (if b.ingest.openLine = none then r else { r with damaged := true })) },
          notices := b.notices ||| 0x0040#16 })) ∧
    (∀ i r, b.ingest.state = .inFrame → b.ingest.frame ≠ some h.a → b.ingest.slot = some i →
      b.slots.table[i]? = some r → exec (.frameEnd e rest) s = .next
        { taken with
          ingest :=
            { left with
              queue := b.ingest.queue.filter (fun w => w.slot != i),
              frameMismatch := bump b.ingest.frameMismatch },
          slots :=
            { b.slots with table := b.slots.table.set i (abandonedRecord (b.writing i) r) },
          notices := b.notices ||| 0x0040#16 }) ∧
    (b.ingest.state = .noFrame → exec (.frameEnd e rest) s = .next mismatched) ∧
    (b.ingest.state = .discarding → b.ingest.frame = some h.a →
      exec (.frameEnd e rest) s = .next { taken with ingest := left }) ∧
    (b.ingest.state = .discarding → b.ingest.frame ≠ some h.a → exec (.frameEnd e rest) s = .next mismatched)

/-! ### Reports and commands of the source -/

/-- A POLL (R172, R173): a bad kind or max return counts POLL_BAD; a good one on an IDLE return lane with an empty queue
begins its report at once, built from the live state, which takes and empties the notice set; one while a report is sent
waits, or is dropped with POLL_OVERRUN when two wait. The report carries the fields and entries of its kind, or in
CONFIG_FAULT the fault cause, or UNAVAILABLE (`ReportFor`; R174 to R176, R181, R189); that IDENT encodes the settled
configuration anew is log 24's deduction, and the 0 of an item whose absence a bit or 0xFF shows is log 30's choice. The
report kinds are those of 13.5, and ATTN_N is low exactly while the notice set holds a notice (R177). -/
def Obligations.PollIsTaken : Prop :=
  (∀ code : Byte, ReportKind.ofCode code =
    ([(1#8, .ident), (2#8, .link), (3#8, .ingest), (4#8, .slots), (5#8, .roster), (6#8, .timing), (7#8, .present),
      (8#8, .ring)] : List (Byte × ReportKind)).lookup code) ∧
  (∀ s : State, s.attnLow = true ↔ ∃ n : Nat, s.notices.getLsbD n = true) ∧
  ∀ (e : Elapsed) (rest : List Byte) (fixed : Bool) (h : LinkHeader) (s : State), LinkHeaderIn e rest fixed h s →
    h.kind = 0x20#8 → h.length = 0 →
    let b := linkBase e fixed s
    let taken : State := { b with link := linkTaken b.link }
    (ReportKind.ofCode (h.a.extractLsb' 0 8) = none ∨ h.b.toNat < 16 ∨ 1024 < h.b.toNat →
      exec (.poll e rest) s = .next
        { taken with report := { b.report with pollBad := bump b.report.pollBad } }) ∧
    (∀ k, ReportKind.ofCode (h.a.extractLsb' 0 8) = some k → 16 ≤ h.b.toNat → h.b.toNat ≤ 1024 →
      let p : Poll := ⟨k, h.a.extractLsb' 8 8, h.b.toNat⟩
      (b.report.sending = none → b.report.queue = [] → ∃ r, exec (.poll e rest) s = .next
          { taken with report := { b.report with sending := some r }, notices := 0 } ∧
        ReportFor p taken r) ∧
      (b.report.sending ≠ none → b.report.queue.length < 2 → exec (.poll e rest) s = .next
        { taken with report := { b.report with queue := b.report.queue ++ [p] } }) ∧
      (b.report.sending ≠ none → 2 ≤ b.report.queue.length → exec (.poll e rest) s = .next
        { taken with
          report := { b.report with pollDropped := bump b.report.pollDropped },
          notices := b.notices ||| 0x0100#16 }))

/-- The completion of a report counts REPORTS_SENT; the head of the poll queue begins at once, its report built from the
live state, taking and emptying the notice set, or the return lane becomes IDLE (R173). The report carries the fields and
entries of its kind, or in CONFIG_FAULT the fault cause, or UNAVAILABLE (`ReportFor`; R174 to R176, R181, R189); that
IDENT encodes the settled configuration anew is log 24's deduction, and the 0 of an item whose absence a bit or 0xFF shows
is log 30's choice. -/
def Obligations.ReportCompletes : Prop :=
  ∀ (e : Elapsed) (r : Report) (s : State), s.held = false → (s.elapse e).report.sending = some r →
    let b := s.elapse e
    (b.report.queue = [] → exec (.reportComplete e) s = .next
      { b with report := { b.report with sending := none, reportsSent := bump b.report.reportsSent } }) ∧
    (∀ p rest, b.report.queue = p :: rest →
      let done : State :=
        { b with
          report := { b.report with sending := none, queue := rest, reportsSent := bump b.report.reportsSent } }
      ∃ q, exec (.reportComplete e) s = .next
        { done with report := { done.report with sending := some q }, notices := 0 } ∧ ReportFor p done q)

/-- The cut of a report (R174, R176). A SLOTS or ROSTER report carries, from the start index, the longest run of whole
entries that fits, with the next index where it is cut; a report of another kind the longest run of whole fields. The
notice set that begins it is two bytes, the high one first. -/
def Obligations.ReportsAreCutAtWholeEntries : Prop :=
  (∀ (p : Poll) (notices : BitVec 16) (fixed : List Byte) (entries : List (Nat × List Byte)),
    2 + fixed.length ≤ p.max →
    CutAtEntries p.start p.max notices fixed entries (pageReport p notices fixed entries)) ∧
  (∀ (kind : ReportKind) (max : Nat) (notices : BitVec 16) (fields : List (List Byte)), 2 ≤ max →
    CutAtFields max notices fields (cutReport kind max notices fields)) ∧
  (∀ notices : BitVec 16, bytes16 notices = numberBytes 2 notices.toNat)

/-- CLEAR sets to 0 every counter of the groups that it selects, and changes nothing else (R178): RING has the counters
of R112, R129 and R57, LINK those of R144 and the three of the Report Unit, INGEST those of R160 and R19 but SKIPPED,
PRESENT those of R41 and SKIPPED, TIMING those of R73 and R92, SCAN those of R171. Its completion counts in PACKETS_TAKEN
before that, as every packet's does (R141, R144); that the last sentence of R178, 'The CLEAR itself is counted nowhere',
speaks of the Report Unit is log 16's deduction. -/
def Obligations.ClearZeroesSelectedGroups : Prop :=
  ∀ (e : Elapsed) (rest : List Byte) (fixed : Bool) (h : LinkHeader) (s : State), LinkHeaderIn e rest fixed h s →
    h.kind = 0x21#8 → h.length = 0 →
    let b := linkBase e fixed s
    exec (.clear e rest) s = .next
      { b with
        ringIn :=
          if h.a.getLsbD 0 then
            { b.ringIn with
              hdrCorrected := 0, hdrBad := 0, lengthBad := 0, stripped := 0, orphan := 0, forwardOverflow := 0,
              crcFirst := 0, taintedIn := 0, truncated := 0, signalLost := 0, forwarded := 0, consumed := 0,
              beatRefused := 0 }
          else b.ringIn,
        ringOut :=
          if h.a.getLsbD 0 then
            { b.ringOut with
              localSent := 0, beatReplaced := 0, standingReplaced := 0, takenBack := 0, lostOwn := 0,
              addressConflict := 0, delayCapped := 0 }
          else b.ringOut,
        roster :=
          if h.a.getLsbD 0 then
            { b.roster with
              standingsTaken := 0, duplicateStanding := 0, rosterRefused := 0, entriesAged := 0, leavesTaken := 0 }
          else b.roster,
        link :=
          if h.a.getLsbD 1 then
            { b.link with
              state := .hunt, packet := none, hdrCorrected := 0, hdrBad := 0, lengthBad := 0, unknownKind := 0,
              crcBad := 0, truncated := 0, signalLost := 0, packetsTaken := 0, notConfigured := 0 }
          else linkTaken b.link,
        report :=
          if h.a.getLsbD 1 then { b.report with pollBad := 0, pollDropped := 0, reportsSent := 0 } else b.report,
        ingest :=
          if h.a.getLsbD 2 then
            { b.ingest with
              framesBegun := 0, linesQueued := 0, orphanLine := 0, rangeError := 0, formatError := 0,
              orderError := 0, lineAbandoned := 0, duplicateLine := 0, queueFullDrop := 0, staleFrame := 0,
              noSlotDrop := 0, abandonedFrame := 0, frameMismatch := 0, incompleteFrame := 0 }
          else b.ingest,
        slots :=
          { b.slots with
            framesCompleted := if h.a.getLsbD 2 then 0 else b.slots.framesCompleted,
            evicted := if h.a.getLsbD 2 then 0 else b.slots.evicted,
            skipped := if h.a.getLsbD 3 then 0 else b.slots.skipped },
        presentation :=
          if h.a.getLsbD 3 then
            { b.presentation with
              presented := 0, repeated := 0, missed := 0, staleDecision := 0, lateDecision := 0,
              decisionsMade := 0 }
          else b.presentation,
        role :=
          if h.a.getLsbD 4 then
            { b.role with
              beatsAccepted := 0, ignoredBeats := 0, dueling := 0, periodMismatch := 0, claims := 0, yields := 0 }
          else b.role,
        timing :=
          if h.a.getLsbD 4 then
            { b.timing with jumps := 0, slips := 0, epochStep := 0, holdoverEntries := 0, saturatedDelay := 0 }
          else b.timing,
        scan :=
          if h.a.getLsbD 5 then { b.scan with underrun := 0, cutFrames := 0, fetches := 0, staleFetch := 0 }
          else b.scan }

/-- LINK_RESET: NO_FRAME, the FILLING and CLOSING slots abandoned, the write queue and the poll queue emptied (R18,
R158, R179). -/
def Obligations.LinkResetClearsSourceSide : Prop :=
  ∀ (e : Elapsed) (rest : List Byte) (fixed : Bool) (h : LinkHeader) (s : State), LinkHeaderIn e rest fixed h s →
    h.kind = 0x22#8 → h.length = 0 →
    let b := linkBase e fixed s
    ∃ t, exec (.linkReset e rest) s = .next t ∧
      t.link = { b.link with state := .hunt, packet := none, packetsTaken := bump b.link.packetsTaken } ∧
      t.ingest =
        { b.ingest with
          state := .noFrame, frame := none, slot := none, accounted := [], openLine := none, buffer := [],
          queue := [] } ∧
      t.report = { b.report with queue := [] } ∧
      t.slots = { b.slots with table := t.slots.table } ∧ t.slots.table.length = b.slots.table.length ∧
      (∀ (i : Nat) (r : Slot), b.slots.table[i]? = some r → t.slots.table[i]? = some
        (if r.state = .filling ∨ r.state = .closing then
          (if b.writing i = true then { r with state := .draining, pending := 1 }
          else ⟨.free, none, [], 0, false⟩)
        else r)) ∧
      Frame [.link, .ingest, .report, .slots] b t

/-- WITHDRAW taken while RUNNING (R71, R180, R187): WITHDRAWN, STANDBY, no pending decision, no own entry, the waiting
STANDING taken back, the LEAVE in its place. An ORIGIN first departs from its role: HOLDOVER, YIELDS, the waiting BEAT
taken back, no current origin (R67, R90). Behind a busy RING OUT the LEAVE waits; an IDLE one takes the head of the forward
queue, or the LEAVE at once (R116, R118, R121). The tick of a departure is kept in the model's own field `departedAt`
(log 13). -/
def Obligations.WithdrawEntersStandby : Prop :=
  ∀ (e : Elapsed) (rest : List Byte) (fixed : Bool) (h : LinkHeader) (c : Settings) (s : State),
    LinkHeaderIn e rest fixed h s → h.kind = 0x23#8 → h.length = 0 → s.loader.station = .running →
    s.loader.settled = some c →
    let b := linkBase e fixed s
    let withdrawn (current : Option Address) (x : State) : State :=
      { x with
        link := linkTaken b.link, loader := { b.loader with station := .withdrawn },
        role := { x.role with listening := 0, current := current },
        presentation := { b.presentation with decision := none }, roster := { b.roster with ownPresent := false },
        ringOut :=
          { x.ringOut with
            leave := true, standing := false,
            takenBack := if x.ringOut.standing then bump x.ringOut.takenBack else x.ringOut.takenBack } }
    (b.role.role ≠ .origin → exec (.withdraw e rest) s = .next
      (leaveOffered c (withdrawn b.role.current
        { b with role := { b.role with role := .standby }, notices := b.notices ||| 0x0002#16 }))) ∧
    (b.role.role = .origin → exec (.withdraw e rest) s = .next
      (leaveOffered c (withdrawn none (departed .standby b))))

/-- REJOIN taken while WITHDRAWN (R71, R180, R187); WITHDRAW while WITHDRAWN and REJOIN while RUNNING reach no block. -/
def Obligations.RejoinReturnsToListening : Prop :=
  ∀ (e : Elapsed) (rest : List Byte) (fixed : Bool) (h : LinkHeader) (c : Settings) (s : State),
    LinkHeaderIn e rest fixed h s → h.length = 0 → s.loader.settled = some c →
    let b := linkBase e fixed s
    let taken : State :=
      { b with
        link := { b.link with state := .hunt, packet := none, packetsTaken := bump b.link.packetsTaken } }
    (h.kind = 0x24#8 → s.loader.station = .withdrawn → exec (.rejoin e rest) s = .next
      { taken with
        loader := { b.loader with station := .running }, role := { b.role with role := .listening, listening := 0 },
        roster := { b.roster with ownPresent := true }, notices := b.notices ||| 0x0002#16 }) ∧
    (h.kind = 0x24#8 → s.loader.station = .running → exec (.rejoin e rest) s = .next taken) ∧
    (h.kind = 0x23#8 → s.loader.station = .withdrawn → exec (.withdraw e rest) s = .next taken)

/-! ### Encodings -/

/-- The header check code (R191): each bit of the check byte; a header as protected checks good; every single bit error
in its 8 bytes is corrected; a syndrome of weight 3 is the column of exactly one header bit, one of weight 2 or 4 to 8 is
uncorrectable; every packet and report that leaves has a header so protected; and the example of 13.2. The columns are
the 56 values that have exactly three bits set, in ascending order. -/
def Obligations.HeaderCheckCode : Prop :=
  headerColumns = ((List.range 256).map (BitVec.ofNat 8)).filter
    (fun x : Byte => decide ((List.range 8).countP (x.getLsbD ·) = 3)) ∧
  (∀ (b : HeaderBits) (j : Nat), j < 8 → (checkByte b).getLsbD j =
    ((List.range 56).foldl (fun x i => x ^^ (b.getLsbD i && (headerColumns.getD i 0).getLsbD j)) false)) ∧
  (∀ b : HeaderBits, checkHeader (protectHeader b) = .good b) ∧
  (∀ (b : HeaderBits) (i : Nat), i < 56 →
    checkHeader (unpackHeader (b ^^^ BitVec.twoPow 56 i) ++ [checkByte b]) = .corrected b) ∧
  (∀ (b : HeaderBits) (j : Nat), j < 8 →
    checkHeader (unpackHeader b ++ [checkByte b ^^^ BitVec.twoPow 8 j]) = .corrected b) ∧
  (∀ (b : HeaderBits) (x : Byte),
    let weight := (List.range 8).countP (x.getLsbD ·)
    (weight = 3 → ∃ i, i < 56 ∧ headerColumns[i]? = some x ∧ (∀ j, headerColumns[j]? = some x → j = i) ∧
      checkSyndrome b x = .corrected (b ^^^ BitVec.twoPow 56 i)) ∧
    (weight = 2 ∨ 4 ≤ weight → checkSyndrome b x = .bad)) ∧
  (∀ (p : RingPacket) (rest : List RingPacket) (s : State) (x : Sending),
    (s.departForwarded p rest).ringOut.sending = some x → ∃ b, x.bytes.take 8 = protectHeader b) ∧
  (∀ (c : Settings) (kind : OwnKind) (payload : List Byte) (delay : BitVec 16) (s : State) (x : Sending),
    (s.departOwn c kind payload delay).ringOut.sending = some x → ∃ b, x.bytes.take 8 = protectHeader b) ∧
  (∀ r : Report, ∃ b, r.bytes.take 8 = protectHeader b) ∧
  (checkByte (BitVec.twoPow 56 0 ||| BitVec.twoPow 56 8) = 0x1D#8 ∧
    checkHeader (unpackHeader (BitVec.twoPow 56 0) ++ [0x1D#8]) =
      .corrected (BitVec.twoPow 56 0 ||| BitVec.twoPow 56 8))

/-- What crosses a pin stands where chapter 13 puts it, and no bit is dropped. Ring and source link headers hold each field
in the bytes and bits of 13.4 and 13.5, a sender of the source link sending its zero positions as 0 and a receiver not
examining them. BEAT and STANDING payloads are laid out as 13.4 says and come back as they were; a STANDING payload is
refused exactly where its Length, its complete count, a code, a fault flag or the order of its frame numbers is wrong (R49;
that its Origin is not 31 is LeavesAndBadContent's). The CRC starts at 0xFFFF, takes each byte from its most significant bit
on, shifts left, and combines 0x1021 where the bit that left differs from the data bit; a receiver compares it with the two
bytes that follow, high byte first (R192). A line symbol is ten bits, its prefix and then eight bits from bit 0 on, and it
is taken as what was sent; every code but data and the start marker is taken as fill (R190). The order of the two bits of
the prefix is log 29's deduction. RING OUT and the return lane carry a start marker and then the bytes of the packet being
sent, on RING OUT followed by one fill symbol, and fill while there is none and while a reset lasts (R117, R173, R188,
R190). A REPORT has the header of 13.5, and behind it its payload and CRC. -/
def Obligations.PacketRoundTrip : Prop :=
  ((∀ h : RingHeader, ringHeader h.bits = h ∧
    unpackHeader h.bits =
      [h.kind] ++ numberBytes 1 (h.group.toNat + 8 * h.origin.toNat) ++ [h.sequence] ++
      numberBytes 1 (h.hops.toNat + 64 * h.taint.toNat + 128 * h.zeroHops.toNat) ++
      numberBytes 1 (h.length.toNat + 64 * h.zeroLength.toNat) ++ numberBytes 2 h.delay.toNat) ∧
  (∀ l : LinkHeader, linkHeader l.bits = l ∧
    unpackHeader l.bits =
      [l.kind] ++ numberBytes 2 l.a.toNat ++ numberBytes 2 l.b.toNat ++ numberBytes 2 l.length.toNat) ∧
  (∀ b : HeaderBits, packHeader (unpackHeader b) = b ∧ (ringHeader b).bits = b ∧
    ∀ i, i < 56 → (linkHeader b).bits.getLsbD i = (b.getLsbD i && decide (i ≠ 46) && decide (i ≠ 47)))) ∧
  ((∀ b : Beat, parseBeat b.payload = b ∧
    b.payload =
      numberBytes 2 b.epoch.toNat ++ numberBytes 1 b.decision.isSome.toNat ++
      numberBytes 2 (b.decision.getD 0).toNat ++ numberBytes 3 b.period.toNat ++ [b.participants]) ∧
  (∀ bs : List Byte,
    let byte (i : Nat) : Nat := (bs.getD i 0).toNat
    parseBeat bs =
      { epoch := BitVec.ofNat 16 (256 * byte 0 + byte 1),
        decision := if byte 2 % 2 = 1 then some (BitVec.ofNat 16 (256 * byte 3 + byte 4)) else none,
        period := BitVec.ofNat 24 (65536 * byte 5 + 256 * byte 6 + byte 7),
        participants := BitVec.ofNat 8 (byte 8) }) ∧
  (∀ x : Standing, x.list.length ≤ 3 → ascending x.list = true →
    parseStanding x.payload = some x ∧ x.payload.length = 8 + 2 * x.list.length ∧
    x.payload =
      numberBytes 1 (x.capable.toNat + 2 * rolePosition x.role + 8 * lockPosition x.lock + 64 * ringPosition x.ring) ++
      numberBytes 1 (x.conflict.toNat + 2 * x.mismatch.toNat) ++ numberBytes 2 (x.shown.getD 0).toNat ++
      numberBytes 2 x.epoch.toNat ++ numberBytes 1 x.shown.isSome.toNat ++ numberBytes 1 x.list.length ++
      x.list.flatMap (fun f => numberBytes 2 f.toNat)) ∧
  (∀ bs : List Byte,
    let byte (i : Nat) : Nat := (bs.getD i 0).toNat
    let frames : List FrameNo :=
      (List.range (byte 7)).map fun j => BitVec.ofNat 16 (256 * byte (8 + 2 * j) + byte (9 + 2 * j))
    let refused : Prop :=
      bs.length ≠ 8 + 2 * byte 7 ∨ 3 < byte 7 ∨ 5 ≤ byte 0 / 8 % 8 ∨ byte 0 / 64 = 3 ∨ 4 ≤ byte 1 ∨
        ∃ (j : Nat) (f g : FrameNo), frames[j]? = some f ∧ frames[j + 1]? = some g ∧ laterThan g f = false
    (refused → parseStanding bs = none) ∧
    (¬ refused → ∃ x, parseStanding bs = some x ∧ x.capable.toNat = byte 0 % 2 ∧
      rolePosition x.role = byte 0 / 2 % 4 ∧ lockPosition x.lock = byte 0 / 8 % 8 ∧
      ringPosition x.ring = byte 0 / 64 ∧ x.conflict.toNat = byte 1 % 2 ∧ x.mismatch.toNat = byte 1 / 2 ∧
      x.shown = (if byte 6 % 2 = 1 then some (BitVec.ofNat 16 (256 * byte 2 + byte 3)) else none) ∧
      x.epoch.toNat = 256 * byte 4 + byte 5 ∧ x.list = frames))) ∧
  (crc16 [] = 0xFFFF#16 ∧
  (∀ (p : List Byte) (b : Byte), crc16 (p ++ [b]) =
    [7, 6, 5, 4, 3, 2, 1, 0].foldl
      (fun (r : BitVec 16) i => if r.getLsbD 15 = b.getLsbD i then r <<< 1 else (r <<< 1) ^^^ 0x1021#16)
      (crc16 p)) ∧
  crc16 [0x31, 0x32, 0x33, 0x34, 0x35, 0x36, 0x37, 0x38, 0x39] = 0x29B1#16 ∧
  (∀ (p : List Byte) (x y : Byte), crcGood p.length (p ++ [x, y]) = decide (crc16 p = x ++ y)) ∧
  (∀ p : List Byte, crcGood p.length (p ++ bytes16 (crc16 p)) = true)) ∧
  ((∀ b : Byte, (LineSymbol.data b).serial =
    [false, true, b.getLsbD 0, b.getLsbD 1, b.getLsbD 2, b.getLsbD 3, b.getLsbD 4, b.getLsbD 5, b.getLsbD 6,
      b.getLsbD 7]) ∧
  LineSymbol.startMarker.serial = [true, false, false, false, false, false, true, true, true, true] ∧
  LineSymbol.fill.serial = [true, false, true, true, true, true, false, false, false, false] ∧
  (∀ x : LineSymbol, receiveSerial x.serial = x) ∧
  (∀ (code : BitVec 2) (bits : Byte), receiveSerial (serialBits code bits) =
    (if code = 0b01#2 then .data bits else if code = 0b10#2 ∧ bits = 0xF0#8 then .startMarker else .fill))) ∧
  ((∀ s : State,
    let bytes (bs : List Byte) : List Bool := bs.flatMap fun b => (LineSymbol.data b).serial
    (∀ x, s.ringOut.sending = some x →
      s.ringOutBits = LineSymbol.startMarker.serial ++ bytes x.bytes ++ LineSymbol.fill.serial) ∧
    (s.ringOut.sending = none → s.ringOutBits = LineSymbol.fill.serial) ∧
    (∀ r, s.report.sending = some r → s.returnLaneBits = LineSymbol.startMarker.serial ++ bytes r.bytes) ∧
    (s.report.sending = none → s.returnLaneBits = LineSymbol.fill.serial)) ∧
  (∀ (pending : List Instr) (signal : Bool) (mem : List Host.Cell) (draws : Nat),
    let t := State.afterReset true pending signal mem draws
    t.ringOutBits = LineSymbol.fill.serial ∧ t.returnLaneBits = LineSymbol.fill.serial) ∧
  (∀ r : Report, r.payload.length < 16384 →
    r.bytes.take 7 =
      [0x30] ++ numberBytes 1 (r.truncated.toNat + 2 * r.unavailable.toNat) ++
      numberBytes 1
        (1 + position [.ident, .link, .ingest, .slots, .roster, .timing, .present, .ring] r.kind) ++
      (match r.nextIndex with
        | some i => [0, i]
        | none => [0xFF, 0xFF]) ++
      numberBytes 2 r.payload.length ∧
    r.bytes.drop 8 = if r.payload = [] then [] else r.payload ++ numberBytes 2 (crc16 r.payload).toNat))

/-- Each component of a source pixel becomes 8 bits by the formula of its width, without overflow, and the components
stand in a group as 13.8 lays them out (R151). -/
def Obligations.PixelComponents : Prop :=
  (∀ v : BitVec 5, (widen5 v).toNat = 8 * v.toNat + v.toNat / 4) ∧
  (∀ v : BitVec 6, (widen6 v).toNat = 4 * v.toNat + v.toNat / 16) ∧
  (∀ v : BitVec 4, (widen4 v).toNat = 17 * v.toNat) ∧ (∀ v : BitVec 10, (narrow10 v).toNat = v.toNat / 4) ∧
  (∀ (f : PixelFormat) (bs : List Byte), bs.length % f.groupBytes = 0 →
    (convertPixels f bs).length = bs.length / f.groupBytes * f.groupPixels) ∧
  (∀ (r g b : Byte) (rest : List Byte),
    convertPixels .p24 (r :: g :: b :: rest) = (r ++ g ++ b) :: convertPixels .p24 rest) ∧
  (∀ (r b : BitVec 5) (g : BitVec 6) (x y : Byte) (rest : List Byte), x ++ y = r ++ g ++ b →
    convertPixels .p16 (x :: y :: rest) = (widen5 r ++ widen6 g ++ widen5 b) :: convertPixels .p16 rest) ∧
  (∀ (r g b r' g' b' : BitVec 4) (x y z : Byte) (rest : List Byte), x ++ y ++ z = r ++ g ++ b ++ r' ++ g' ++ b' →
    convertPixels .p12 (x :: y :: z :: rest) =
      (widen4 r ++ widen4 g ++ widen4 b) :: (widen4 r' ++ widen4 g' ++ widen4 b') :: convertPixels .p12 rest) ∧
  (∀ (v : BitVec 120) (rest : List Byte),
    convertPixels .p30 ((List.range 15).map (fun i => v.extractLsb' (112 - 8 * i) 8) ++ rest) =
      (List.range 4).map (fun i =>
        narrow10 (v.extractLsb' (110 - 30 * i) 10) ++ narrow10 (v.extractLsb' (100 - 30 * i) 10) ++
          narrow10 (v.extractLsb' (90 - 30 * i) 10)) ++
      convertPixels .p30 rest)

/-! ### Laws that every step keeps -/

/-- The laws hold right after reset: those of the memory's form, of the roles, of the roster, of the forward queue, of the
state before RUNNING, of the slots, of the line writes and of what is IDLE, and the limits of the outstanding list and of
the write places (R42, R58, R113, R118, R124, R154, R162, R186). -/
def Obligations.LawsHoldAtReset : Prop :=
  Memory.wf State.reset.mem ∧ OriginLaw State.reset ∧ RosterLaw State.reset ∧ OccupancyLaw State.reset ∧
    QuietLaw State.reset ∧ SlotLaw State.reset ∧ WriteLaw State.reset ∧ IdleLaw State.reset ∧
    State.reset.ringOut.outstanding.length ≤ 8 ∧
    State.reset.placesHeld ≤ 4

/-- Every step keeps the canonical form of the frame memory, inside the 33,554,432 bytes of the device. -/
def Obligations.EveryStepKeepsMemoryForm : Prop :=
  StepKeeps fun s => Memory.wf s.mem

/-- Every step keeps the law of R58: an ORIGIN is REFERENCE, and its roster holds no capable MEMBER at a lower
address. -/
def Obligations.EveryStepKeepsOriginLaw : Prop :=
  StepKeeps OriginLaw

/-- Every step keeps the laws of the roster (R42): one entry for each address, the own one exactly while RUNNING, at most
31 in all, and none before RUNNING. That none of the others stands at the own address rests on log 27. -/
def Obligations.EveryStepKeepsRosterLaw : Prop :=
  StepKeeps RosterLaw

/-- Every step keeps the forward queue within 160 bytes and its occupancy true (R113). -/
def Obligations.EveryStepKeepsOccupancyLaw : Prop :=
  StepKeeps OccupancyLaw

/-- Every step keeps the blocks at their reset values while no configuration is in force (R110, R128, R186). -/
def Obligations.EveryStepKeepsQuietLaw : Prop :=
  StepKeeps QuietLaw

/-- Every step keeps the laws of the slot table (R2, R5, R16, R20, R145): which slots hold a frame, no frame twice, the
complete list in ascending serial order with at most one frame fewer than there are slots, at most three, every held frame
later than the shown one and frames completing in the order in which they began; with the laws of the line writes on which
that order rests. -/
def Obligations.EveryStepKeepsSlotLaw : Prop :=
  StepKeeps fun s => SlotLaw s ∧ WriteLaw s ∧ QuietLaw s

/-- Every step keeps the outstanding list at 8 entries or fewer (R124) and the write places at four or fewer (R154), and
leaves nothing waiting behind an IDLE RING OUT (R118) and no line write behind an idle frame memory (R162); with the law of
the state before RUNNING, under which no local place is filled. -/
def Obligations.EveryStepKeepsListLimits : Prop :=
  StepKeeps fun s => s.ringOut.outstanding.length ≤ 8 ∧ s.placesHeld ≤ 4 ∧ IdleLaw s ∧ QuietLaw s

/-- The shown frame changes only to a later one, and only a device reset makes it absent (R20). -/
def Obligations.ShownFrameOnlyGoesForward : Prop :=
  ∀ (s t : State) (f : FrameNo), step s = .next t → s.presentation.shown = some f →
    (∃ g, t.presentation.shown = some g ∧ (g = f ∨ laterThan g f = true)) ∨
      ∃ e cause rest, s.pending = .deviceReset e cause :: rest ∧ t.held = true

/-- The settled configuration changes only at a device reset or, in CONFIGURING, at the completion of the configuration
read (R185). -/
def Obligations.SettledConfigurationIsKept : Prop :=
  ∀ (s t : State), step s = .next t → t.loader.settled = s.loader.settled ∨
    (∃ e cause rest, s.pending = .deviceReset e cause :: rest) ∨
    (s.loader.station = .configuring ∧ ∃ e bytes rest, s.pending = .configReadComplete e bytes :: rest)
end

