-- ==== Sys2Proof/Laws/State.lean ====
section
/-! SUPPORT. Each field after each update of the state, so that no proof unfolds a record update. -/

namespace Sys2Proof.Machine

variable (s : State)

/-! ### setPending -/

@[simp] theorem State.setPending_pending (v : List Instr) : (s.setPending v).pending = v := rfl
@[simp] theorem State.setPending_held (v : List Instr) : (s.setPending v).held = s.held := rfl
@[simp] theorem State.setPending_now (v : List Instr) : (s.setPending v).now = s.now := rfl
@[simp] theorem State.setPending_loader (v : List Instr) : (s.setPending v).loader = s.loader := rfl
@[simp] theorem State.setPending_timing (v : List Instr) : (s.setPending v).timing = s.timing := rfl
@[simp] theorem State.setPending_role (v : List Instr) : (s.setPending v).role = s.role := rfl
@[simp] theorem State.setPending_roster (v : List Instr) : (s.setPending v).roster = s.roster := rfl
@[simp] theorem State.setPending_presentation (v : List Instr) : (s.setPending v).presentation = s.presentation := rfl
@[simp] theorem State.setPending_slots (v : List Instr) : (s.setPending v).slots = s.slots := rfl
@[simp] theorem State.setPending_ringIn (v : List Instr) : (s.setPending v).ringIn = s.ringIn := rfl
@[simp] theorem State.setPending_ringOut (v : List Instr) : (s.setPending v).ringOut = s.ringOut := rfl
@[simp] theorem State.setPending_link (v : List Instr) : (s.setPending v).link = s.link := rfl
@[simp] theorem State.setPending_ingest (v : List Instr) : (s.setPending v).ingest = s.ingest := rfl
@[simp] theorem State.setPending_transfer (v : List Instr) : (s.setPending v).transfer = s.transfer := rfl
@[simp] theorem State.setPending_scan (v : List Instr) : (s.setPending v).scan = s.scan := rfl
@[simp] theorem State.setPending_report (v : List Instr) : (s.setPending v).report = s.report := rfl
@[simp] theorem State.setPending_notices (v : List Instr) : (s.setPending v).notices = s.notices := rfl
@[simp] theorem State.setPending_mem (v : List Instr) : (s.setPending v).mem = s.mem := rfl
@[simp] theorem State.setPending_draws (v : List Instr) : (s.setPending v).draws = s.draws := rfl

/-! ### setHeld -/

@[simp] theorem State.setHeld_pending (v : Bool) : (s.setHeld v).pending = s.pending := rfl
@[simp] theorem State.setHeld_held (v : Bool) : (s.setHeld v).held = v := rfl
@[simp] theorem State.setHeld_now (v : Bool) : (s.setHeld v).now = s.now := rfl
@[simp] theorem State.setHeld_loader (v : Bool) : (s.setHeld v).loader = s.loader := rfl
@[simp] theorem State.setHeld_timing (v : Bool) : (s.setHeld v).timing = s.timing := rfl
@[simp] theorem State.setHeld_role (v : Bool) : (s.setHeld v).role = s.role := rfl
@[simp] theorem State.setHeld_roster (v : Bool) : (s.setHeld v).roster = s.roster := rfl
@[simp] theorem State.setHeld_presentation (v : Bool) : (s.setHeld v).presentation = s.presentation := rfl
@[simp] theorem State.setHeld_slots (v : Bool) : (s.setHeld v).slots = s.slots := rfl
@[simp] theorem State.setHeld_ringIn (v : Bool) : (s.setHeld v).ringIn = s.ringIn := rfl
@[simp] theorem State.setHeld_ringOut (v : Bool) : (s.setHeld v).ringOut = s.ringOut := rfl
@[simp] theorem State.setHeld_link (v : Bool) : (s.setHeld v).link = s.link := rfl
@[simp] theorem State.setHeld_ingest (v : Bool) : (s.setHeld v).ingest = s.ingest := rfl
@[simp] theorem State.setHeld_transfer (v : Bool) : (s.setHeld v).transfer = s.transfer := rfl
@[simp] theorem State.setHeld_scan (v : Bool) : (s.setHeld v).scan = s.scan := rfl
@[simp] theorem State.setHeld_report (v : Bool) : (s.setHeld v).report = s.report := rfl
@[simp] theorem State.setHeld_notices (v : Bool) : (s.setHeld v).notices = s.notices := rfl
@[simp] theorem State.setHeld_mem (v : Bool) : (s.setHeld v).mem = s.mem := rfl
@[simp] theorem State.setHeld_draws (v : Bool) : (s.setHeld v).draws = s.draws := rfl

/-! ### setNow -/

@[simp] theorem State.setNow_pending (v : Tick) : (s.setNow v).pending = s.pending := rfl
@[simp] theorem State.setNow_held (v : Tick) : (s.setNow v).held = s.held := rfl
@[simp] theorem State.setNow_now (v : Tick) : (s.setNow v).now = v := rfl
@[simp] theorem State.setNow_loader (v : Tick) : (s.setNow v).loader = s.loader := rfl
@[simp] theorem State.setNow_timing (v : Tick) : (s.setNow v).timing = s.timing := rfl
@[simp] theorem State.setNow_role (v : Tick) : (s.setNow v).role = s.role := rfl
@[simp] theorem State.setNow_roster (v : Tick) : (s.setNow v).roster = s.roster := rfl
@[simp] theorem State.setNow_presentation (v : Tick) : (s.setNow v).presentation = s.presentation := rfl
@[simp] theorem State.setNow_slots (v : Tick) : (s.setNow v).slots = s.slots := rfl
@[simp] theorem State.setNow_ringIn (v : Tick) : (s.setNow v).ringIn = s.ringIn := rfl
@[simp] theorem State.setNow_ringOut (v : Tick) : (s.setNow v).ringOut = s.ringOut := rfl
@[simp] theorem State.setNow_link (v : Tick) : (s.setNow v).link = s.link := rfl
@[simp] theorem State.setNow_ingest (v : Tick) : (s.setNow v).ingest = s.ingest := rfl
@[simp] theorem State.setNow_transfer (v : Tick) : (s.setNow v).transfer = s.transfer := rfl
@[simp] theorem State.setNow_scan (v : Tick) : (s.setNow v).scan = s.scan := rfl
@[simp] theorem State.setNow_report (v : Tick) : (s.setNow v).report = s.report := rfl
@[simp] theorem State.setNow_notices (v : Tick) : (s.setNow v).notices = s.notices := rfl
@[simp] theorem State.setNow_mem (v : Tick) : (s.setNow v).mem = s.mem := rfl
@[simp] theorem State.setNow_draws (v : Tick) : (s.setNow v).draws = s.draws := rfl

/-! ### setLoader -/

@[simp] theorem State.setLoader_pending (v : Loader) : (s.setLoader v).pending = s.pending := rfl
@[simp] theorem State.setLoader_held (v : Loader) : (s.setLoader v).held = s.held := rfl
@[simp] theorem State.setLoader_now (v : Loader) : (s.setLoader v).now = s.now := rfl
@[simp] theorem State.setLoader_loader (v : Loader) : (s.setLoader v).loader = v := rfl
@[simp] theorem State.setLoader_timing (v : Loader) : (s.setLoader v).timing = s.timing := rfl
@[simp] theorem State.setLoader_role (v : Loader) : (s.setLoader v).role = s.role := rfl
@[simp] theorem State.setLoader_roster (v : Loader) : (s.setLoader v).roster = s.roster := rfl
@[simp] theorem State.setLoader_presentation (v : Loader) : (s.setLoader v).presentation = s.presentation := rfl
@[simp] theorem State.setLoader_slots (v : Loader) : (s.setLoader v).slots = s.slots := rfl
@[simp] theorem State.setLoader_ringIn (v : Loader) : (s.setLoader v).ringIn = s.ringIn := rfl
@[simp] theorem State.setLoader_ringOut (v : Loader) : (s.setLoader v).ringOut = s.ringOut := rfl
@[simp] theorem State.setLoader_link (v : Loader) : (s.setLoader v).link = s.link := rfl
@[simp] theorem State.setLoader_ingest (v : Loader) : (s.setLoader v).ingest = s.ingest := rfl
@[simp] theorem State.setLoader_transfer (v : Loader) : (s.setLoader v).transfer = s.transfer := rfl
@[simp] theorem State.setLoader_scan (v : Loader) : (s.setLoader v).scan = s.scan := rfl
@[simp] theorem State.setLoader_report (v : Loader) : (s.setLoader v).report = s.report := rfl
@[simp] theorem State.setLoader_notices (v : Loader) : (s.setLoader v).notices = s.notices := rfl
@[simp] theorem State.setLoader_mem (v : Loader) : (s.setLoader v).mem = s.mem := rfl
@[simp] theorem State.setLoader_draws (v : Loader) : (s.setLoader v).draws = s.draws := rfl

/-! ### setTiming -/

@[simp] theorem State.setTiming_pending (v : TimingUnit) : (s.setTiming v).pending = s.pending := rfl
@[simp] theorem State.setTiming_held (v : TimingUnit) : (s.setTiming v).held = s.held := rfl
@[simp] theorem State.setTiming_now (v : TimingUnit) : (s.setTiming v).now = s.now := rfl
@[simp] theorem State.setTiming_loader (v : TimingUnit) : (s.setTiming v).loader = s.loader := rfl
@[simp] theorem State.setTiming_timing (v : TimingUnit) : (s.setTiming v).timing = v := rfl
@[simp] theorem State.setTiming_role (v : TimingUnit) : (s.setTiming v).role = s.role := rfl
@[simp] theorem State.setTiming_roster (v : TimingUnit) : (s.setTiming v).roster = s.roster := rfl
@[simp] theorem State.setTiming_presentation (v : TimingUnit) : (s.setTiming v).presentation = s.presentation := rfl
@[simp] theorem State.setTiming_slots (v : TimingUnit) : (s.setTiming v).slots = s.slots := rfl
@[simp] theorem State.setTiming_ringIn (v : TimingUnit) : (s.setTiming v).ringIn = s.ringIn := rfl
@[simp] theorem State.setTiming_ringOut (v : TimingUnit) : (s.setTiming v).ringOut = s.ringOut := rfl
@[simp] theorem State.setTiming_link (v : TimingUnit) : (s.setTiming v).link = s.link := rfl
@[simp] theorem State.setTiming_ingest (v : TimingUnit) : (s.setTiming v).ingest = s.ingest := rfl
@[simp] theorem State.setTiming_transfer (v : TimingUnit) : (s.setTiming v).transfer = s.transfer := rfl
@[simp] theorem State.setTiming_scan (v : TimingUnit) : (s.setTiming v).scan = s.scan := rfl
@[simp] theorem State.setTiming_report (v : TimingUnit) : (s.setTiming v).report = s.report := rfl
@[simp] theorem State.setTiming_notices (v : TimingUnit) : (s.setTiming v).notices = s.notices := rfl
@[simp] theorem State.setTiming_mem (v : TimingUnit) : (s.setTiming v).mem = s.mem := rfl
@[simp] theorem State.setTiming_draws (v : TimingUnit) : (s.setTiming v).draws = s.draws := rfl

/-! ### setRole -/

@[simp] theorem State.setRole_pending (v : RoleUnit) : (s.setRole v).pending = s.pending := rfl
@[simp] theorem State.setRole_held (v : RoleUnit) : (s.setRole v).held = s.held := rfl
@[simp] theorem State.setRole_now (v : RoleUnit) : (s.setRole v).now = s.now := rfl
@[simp] theorem State.setRole_loader (v : RoleUnit) : (s.setRole v).loader = s.loader := rfl
@[simp] theorem State.setRole_timing (v : RoleUnit) : (s.setRole v).timing = s.timing := rfl
@[simp] theorem State.setRole_role (v : RoleUnit) : (s.setRole v).role = v := rfl
@[simp] theorem State.setRole_roster (v : RoleUnit) : (s.setRole v).roster = s.roster := rfl
@[simp] theorem State.setRole_presentation (v : RoleUnit) : (s.setRole v).presentation = s.presentation := rfl
@[simp] theorem State.setRole_slots (v : RoleUnit) : (s.setRole v).slots = s.slots := rfl
@[simp] theorem State.setRole_ringIn (v : RoleUnit) : (s.setRole v).ringIn = s.ringIn := rfl
@[simp] theorem State.setRole_ringOut (v : RoleUnit) : (s.setRole v).ringOut = s.ringOut := rfl
@[simp] theorem State.setRole_link (v : RoleUnit) : (s.setRole v).link = s.link := rfl
@[simp] theorem State.setRole_ingest (v : RoleUnit) : (s.setRole v).ingest = s.ingest := rfl
@[simp] theorem State.setRole_transfer (v : RoleUnit) : (s.setRole v).transfer = s.transfer := rfl
@[simp] theorem State.setRole_scan (v : RoleUnit) : (s.setRole v).scan = s.scan := rfl
@[simp] theorem State.setRole_report (v : RoleUnit) : (s.setRole v).report = s.report := rfl
@[simp] theorem State.setRole_notices (v : RoleUnit) : (s.setRole v).notices = s.notices := rfl
@[simp] theorem State.setRole_mem (v : RoleUnit) : (s.setRole v).mem = s.mem := rfl
@[simp] theorem State.setRole_draws (v : RoleUnit) : (s.setRole v).draws = s.draws := rfl

/-! ### setRoster -/

@[simp] theorem State.setRoster_pending (v : RosterUnit) : (s.setRoster v).pending = s.pending := rfl
@[simp] theorem State.setRoster_held (v : RosterUnit) : (s.setRoster v).held = s.held := rfl
@[simp] theorem State.setRoster_now (v : RosterUnit) : (s.setRoster v).now = s.now := rfl
@[simp] theorem State.setRoster_loader (v : RosterUnit) : (s.setRoster v).loader = s.loader := rfl
@[simp] theorem State.setRoster_timing (v : RosterUnit) : (s.setRoster v).timing = s.timing := rfl
@[simp] theorem State.setRoster_role (v : RosterUnit) : (s.setRoster v).role = s.role := rfl
@[simp] theorem State.setRoster_roster (v : RosterUnit) : (s.setRoster v).roster = v := rfl
@[simp] theorem State.setRoster_presentation (v : RosterUnit) : (s.setRoster v).presentation = s.presentation := rfl
@[simp] theorem State.setRoster_slots (v : RosterUnit) : (s.setRoster v).slots = s.slots := rfl
@[simp] theorem State.setRoster_ringIn (v : RosterUnit) : (s.setRoster v).ringIn = s.ringIn := rfl
@[simp] theorem State.setRoster_ringOut (v : RosterUnit) : (s.setRoster v).ringOut = s.ringOut := rfl
@[simp] theorem State.setRoster_link (v : RosterUnit) : (s.setRoster v).link = s.link := rfl
@[simp] theorem State.setRoster_ingest (v : RosterUnit) : (s.setRoster v).ingest = s.ingest := rfl
@[simp] theorem State.setRoster_transfer (v : RosterUnit) : (s.setRoster v).transfer = s.transfer := rfl
@[simp] theorem State.setRoster_scan (v : RosterUnit) : (s.setRoster v).scan = s.scan := rfl
@[simp] theorem State.setRoster_report (v : RosterUnit) : (s.setRoster v).report = s.report := rfl
@[simp] theorem State.setRoster_notices (v : RosterUnit) : (s.setRoster v).notices = s.notices := rfl
@[simp] theorem State.setRoster_mem (v : RosterUnit) : (s.setRoster v).mem = s.mem := rfl
@[simp] theorem State.setRoster_draws (v : RosterUnit) : (s.setRoster v).draws = s.draws := rfl

/-! ### setPresentation -/

@[simp] theorem State.setPresentation_pending (v : Presentation) : (s.setPresentation v).pending = s.pending := rfl
@[simp] theorem State.setPresentation_held (v : Presentation) : (s.setPresentation v).held = s.held := rfl
@[simp] theorem State.setPresentation_now (v : Presentation) : (s.setPresentation v).now = s.now := rfl
@[simp] theorem State.setPresentation_loader (v : Presentation) : (s.setPresentation v).loader = s.loader := rfl
@[simp] theorem State.setPresentation_timing (v : Presentation) : (s.setPresentation v).timing = s.timing := rfl
@[simp] theorem State.setPresentation_role (v : Presentation) : (s.setPresentation v).role = s.role := rfl
@[simp] theorem State.setPresentation_roster (v : Presentation) : (s.setPresentation v).roster = s.roster := rfl
@[simp] theorem State.setPresentation_presentation (v : Presentation) : (s.setPresentation v).presentation = v := rfl
@[simp] theorem State.setPresentation_slots (v : Presentation) : (s.setPresentation v).slots = s.slots := rfl
@[simp] theorem State.setPresentation_ringIn (v : Presentation) : (s.setPresentation v).ringIn = s.ringIn := rfl
@[simp] theorem State.setPresentation_ringOut (v : Presentation) : (s.setPresentation v).ringOut = s.ringOut := rfl
@[simp] theorem State.setPresentation_link (v : Presentation) : (s.setPresentation v).link = s.link := rfl
@[simp] theorem State.setPresentation_ingest (v : Presentation) : (s.setPresentation v).ingest = s.ingest := rfl
@[simp] theorem State.setPresentation_transfer (v : Presentation) : (s.setPresentation v).transfer = s.transfer := rfl
@[simp] theorem State.setPresentation_scan (v : Presentation) : (s.setPresentation v).scan = s.scan := rfl
@[simp] theorem State.setPresentation_report (v : Presentation) : (s.setPresentation v).report = s.report := rfl
@[simp] theorem State.setPresentation_notices (v : Presentation) : (s.setPresentation v).notices = s.notices := rfl
@[simp] theorem State.setPresentation_mem (v : Presentation) : (s.setPresentation v).mem = s.mem := rfl
@[simp] theorem State.setPresentation_draws (v : Presentation) : (s.setPresentation v).draws = s.draws := rfl

/-! ### setSlots -/

@[simp] theorem State.setSlots_pending (v : SlotManager) : (s.setSlots v).pending = s.pending := rfl
@[simp] theorem State.setSlots_held (v : SlotManager) : (s.setSlots v).held = s.held := rfl
@[simp] theorem State.setSlots_now (v : SlotManager) : (s.setSlots v).now = s.now := rfl
@[simp] theorem State.setSlots_loader (v : SlotManager) : (s.setSlots v).loader = s.loader := rfl
@[simp] theorem State.setSlots_timing (v : SlotManager) : (s.setSlots v).timing = s.timing := rfl
@[simp] theorem State.setSlots_role (v : SlotManager) : (s.setSlots v).role = s.role := rfl
@[simp] theorem State.setSlots_roster (v : SlotManager) : (s.setSlots v).roster = s.roster := rfl
@[simp] theorem State.setSlots_presentation (v : SlotManager) : (s.setSlots v).presentation = s.presentation := rfl
@[simp] theorem State.setSlots_slots (v : SlotManager) : (s.setSlots v).slots = v := rfl
@[simp] theorem State.setSlots_ringIn (v : SlotManager) : (s.setSlots v).ringIn = s.ringIn := rfl
@[simp] theorem State.setSlots_ringOut (v : SlotManager) : (s.setSlots v).ringOut = s.ringOut := rfl
@[simp] theorem State.setSlots_link (v : SlotManager) : (s.setSlots v).link = s.link := rfl
@[simp] theorem State.setSlots_ingest (v : SlotManager) : (s.setSlots v).ingest = s.ingest := rfl
@[simp] theorem State.setSlots_transfer (v : SlotManager) : (s.setSlots v).transfer = s.transfer := rfl
@[simp] theorem State.setSlots_scan (v : SlotManager) : (s.setSlots v).scan = s.scan := rfl
@[simp] theorem State.setSlots_report (v : SlotManager) : (s.setSlots v).report = s.report := rfl
@[simp] theorem State.setSlots_notices (v : SlotManager) : (s.setSlots v).notices = s.notices := rfl
@[simp] theorem State.setSlots_mem (v : SlotManager) : (s.setSlots v).mem = s.mem := rfl
@[simp] theorem State.setSlots_draws (v : SlotManager) : (s.setSlots v).draws = s.draws := rfl

/-! ### setRingIn -/

@[simp] theorem State.setRingIn_pending (v : RingReceiver) : (s.setRingIn v).pending = s.pending := rfl
@[simp] theorem State.setRingIn_held (v : RingReceiver) : (s.setRingIn v).held = s.held := rfl
@[simp] theorem State.setRingIn_now (v : RingReceiver) : (s.setRingIn v).now = s.now := rfl
@[simp] theorem State.setRingIn_loader (v : RingReceiver) : (s.setRingIn v).loader = s.loader := rfl
@[simp] theorem State.setRingIn_timing (v : RingReceiver) : (s.setRingIn v).timing = s.timing := rfl
@[simp] theorem State.setRingIn_role (v : RingReceiver) : (s.setRingIn v).role = s.role := rfl
@[simp] theorem State.setRingIn_roster (v : RingReceiver) : (s.setRingIn v).roster = s.roster := rfl
@[simp] theorem State.setRingIn_presentation (v : RingReceiver) : (s.setRingIn v).presentation = s.presentation := rfl
@[simp] theorem State.setRingIn_slots (v : RingReceiver) : (s.setRingIn v).slots = s.slots := rfl
@[simp] theorem State.setRingIn_ringIn (v : RingReceiver) : (s.setRingIn v).ringIn = v := rfl
@[simp] theorem State.setRingIn_ringOut (v : RingReceiver) : (s.setRingIn v).ringOut = s.ringOut := rfl
@[simp] theorem State.setRingIn_link (v : RingReceiver) : (s.setRingIn v).link = s.link := rfl
@[simp] theorem State.setRingIn_ingest (v : RingReceiver) : (s.setRingIn v).ingest = s.ingest := rfl
@[simp] theorem State.setRingIn_transfer (v : RingReceiver) : (s.setRingIn v).transfer = s.transfer := rfl
@[simp] theorem State.setRingIn_scan (v : RingReceiver) : (s.setRingIn v).scan = s.scan := rfl
@[simp] theorem State.setRingIn_report (v : RingReceiver) : (s.setRingIn v).report = s.report := rfl
@[simp] theorem State.setRingIn_notices (v : RingReceiver) : (s.setRingIn v).notices = s.notices := rfl
@[simp] theorem State.setRingIn_mem (v : RingReceiver) : (s.setRingIn v).mem = s.mem := rfl
@[simp] theorem State.setRingIn_draws (v : RingReceiver) : (s.setRingIn v).draws = s.draws := rfl

/-! ### setRingOut -/

@[simp] theorem State.setRingOut_pending (v : RingTransmitter) : (s.setRingOut v).pending = s.pending := rfl
@[simp] theorem State.setRingOut_held (v : RingTransmitter) : (s.setRingOut v).held = s.held := rfl
@[simp] theorem State.setRingOut_now (v : RingTransmitter) : (s.setRingOut v).now = s.now := rfl
@[simp] theorem State.setRingOut_loader (v : RingTransmitter) : (s.setRingOut v).loader = s.loader := rfl
@[simp] theorem State.setRingOut_timing (v : RingTransmitter) : (s.setRingOut v).timing = s.timing := rfl
@[simp] theorem State.setRingOut_role (v : RingTransmitter) : (s.setRingOut v).role = s.role := rfl
@[simp] theorem State.setRingOut_roster (v : RingTransmitter) : (s.setRingOut v).roster = s.roster := rfl
@[simp] theorem State.setRingOut_presentation (v : RingTransmitter) : (s.setRingOut v).presentation = s.presentation := rfl
@[simp] theorem State.setRingOut_slots (v : RingTransmitter) : (s.setRingOut v).slots = s.slots := rfl
@[simp] theorem State.setRingOut_ringIn (v : RingTransmitter) : (s.setRingOut v).ringIn = s.ringIn := rfl
@[simp] theorem State.setRingOut_ringOut (v : RingTransmitter) : (s.setRingOut v).ringOut = v := rfl
@[simp] theorem State.setRingOut_link (v : RingTransmitter) : (s.setRingOut v).link = s.link := rfl
@[simp] theorem State.setRingOut_ingest (v : RingTransmitter) : (s.setRingOut v).ingest = s.ingest := rfl
@[simp] theorem State.setRingOut_transfer (v : RingTransmitter) : (s.setRingOut v).transfer = s.transfer := rfl
@[simp] theorem State.setRingOut_scan (v : RingTransmitter) : (s.setRingOut v).scan = s.scan := rfl
@[simp] theorem State.setRingOut_report (v : RingTransmitter) : (s.setRingOut v).report = s.report := rfl
@[simp] theorem State.setRingOut_notices (v : RingTransmitter) : (s.setRingOut v).notices = s.notices := rfl
@[simp] theorem State.setRingOut_mem (v : RingTransmitter) : (s.setRingOut v).mem = s.mem := rfl
@[simp] theorem State.setRingOut_draws (v : RingTransmitter) : (s.setRingOut v).draws = s.draws := rfl

/-! ### setLink -/

@[simp] theorem State.setLink_pending (v : LinkReceiver) : (s.setLink v).pending = s.pending := rfl
@[simp] theorem State.setLink_held (v : LinkReceiver) : (s.setLink v).held = s.held := rfl
@[simp] theorem State.setLink_now (v : LinkReceiver) : (s.setLink v).now = s.now := rfl
@[simp] theorem State.setLink_loader (v : LinkReceiver) : (s.setLink v).loader = s.loader := rfl
@[simp] theorem State.setLink_timing (v : LinkReceiver) : (s.setLink v).timing = s.timing := rfl
@[simp] theorem State.setLink_role (v : LinkReceiver) : (s.setLink v).role = s.role := rfl
@[simp] theorem State.setLink_roster (v : LinkReceiver) : (s.setLink v).roster = s.roster := rfl
@[simp] theorem State.setLink_presentation (v : LinkReceiver) : (s.setLink v).presentation = s.presentation := rfl
@[simp] theorem State.setLink_slots (v : LinkReceiver) : (s.setLink v).slots = s.slots := rfl
@[simp] theorem State.setLink_ringIn (v : LinkReceiver) : (s.setLink v).ringIn = s.ringIn := rfl
@[simp] theorem State.setLink_ringOut (v : LinkReceiver) : (s.setLink v).ringOut = s.ringOut := rfl
@[simp] theorem State.setLink_link (v : LinkReceiver) : (s.setLink v).link = v := rfl
@[simp] theorem State.setLink_ingest (v : LinkReceiver) : (s.setLink v).ingest = s.ingest := rfl
@[simp] theorem State.setLink_transfer (v : LinkReceiver) : (s.setLink v).transfer = s.transfer := rfl
@[simp] theorem State.setLink_scan (v : LinkReceiver) : (s.setLink v).scan = s.scan := rfl
@[simp] theorem State.setLink_report (v : LinkReceiver) : (s.setLink v).report = s.report := rfl
@[simp] theorem State.setLink_notices (v : LinkReceiver) : (s.setLink v).notices = s.notices := rfl
@[simp] theorem State.setLink_mem (v : LinkReceiver) : (s.setLink v).mem = s.mem := rfl
@[simp] theorem State.setLink_draws (v : LinkReceiver) : (s.setLink v).draws = s.draws := rfl

/-! ### setIngest -/

@[simp] theorem State.setIngest_pending (v : Assembler) : (s.setIngest v).pending = s.pending := rfl
@[simp] theorem State.setIngest_held (v : Assembler) : (s.setIngest v).held = s.held := rfl
@[simp] theorem State.setIngest_now (v : Assembler) : (s.setIngest v).now = s.now := rfl
@[simp] theorem State.setIngest_loader (v : Assembler) : (s.setIngest v).loader = s.loader := rfl
@[simp] theorem State.setIngest_timing (v : Assembler) : (s.setIngest v).timing = s.timing := rfl
@[simp] theorem State.setIngest_role (v : Assembler) : (s.setIngest v).role = s.role := rfl
@[simp] theorem State.setIngest_roster (v : Assembler) : (s.setIngest v).roster = s.roster := rfl
@[simp] theorem State.setIngest_presentation (v : Assembler) : (s.setIngest v).presentation = s.presentation := rfl
@[simp] theorem State.setIngest_slots (v : Assembler) : (s.setIngest v).slots = s.slots := rfl
@[simp] theorem State.setIngest_ringIn (v : Assembler) : (s.setIngest v).ringIn = s.ringIn := rfl
@[simp] theorem State.setIngest_ringOut (v : Assembler) : (s.setIngest v).ringOut = s.ringOut := rfl
@[simp] theorem State.setIngest_link (v : Assembler) : (s.setIngest v).link = s.link := rfl
@[simp] theorem State.setIngest_ingest (v : Assembler) : (s.setIngest v).ingest = v := rfl
@[simp] theorem State.setIngest_transfer (v : Assembler) : (s.setIngest v).transfer = s.transfer := rfl
@[simp] theorem State.setIngest_scan (v : Assembler) : (s.setIngest v).scan = s.scan := rfl
@[simp] theorem State.setIngest_report (v : Assembler) : (s.setIngest v).report = s.report := rfl
@[simp] theorem State.setIngest_notices (v : Assembler) : (s.setIngest v).notices = s.notices := rfl
@[simp] theorem State.setIngest_mem (v : Assembler) : (s.setIngest v).mem = s.mem := rfl
@[simp] theorem State.setIngest_draws (v : Assembler) : (s.setIngest v).draws = s.draws := rfl

/-! ### setTransfer -/

@[simp] theorem State.setTransfer_pending (v : Option Transfer) : (s.setTransfer v).pending = s.pending := rfl
@[simp] theorem State.setTransfer_held (v : Option Transfer) : (s.setTransfer v).held = s.held := rfl
@[simp] theorem State.setTransfer_now (v : Option Transfer) : (s.setTransfer v).now = s.now := rfl
@[simp] theorem State.setTransfer_loader (v : Option Transfer) : (s.setTransfer v).loader = s.loader := rfl
@[simp] theorem State.setTransfer_timing (v : Option Transfer) : (s.setTransfer v).timing = s.timing := rfl
@[simp] theorem State.setTransfer_role (v : Option Transfer) : (s.setTransfer v).role = s.role := rfl
@[simp] theorem State.setTransfer_roster (v : Option Transfer) : (s.setTransfer v).roster = s.roster := rfl
@[simp] theorem State.setTransfer_presentation (v : Option Transfer) : (s.setTransfer v).presentation = s.presentation := rfl
@[simp] theorem State.setTransfer_slots (v : Option Transfer) : (s.setTransfer v).slots = s.slots := rfl
@[simp] theorem State.setTransfer_ringIn (v : Option Transfer) : (s.setTransfer v).ringIn = s.ringIn := rfl
@[simp] theorem State.setTransfer_ringOut (v : Option Transfer) : (s.setTransfer v).ringOut = s.ringOut := rfl
@[simp] theorem State.setTransfer_link (v : Option Transfer) : (s.setTransfer v).link = s.link := rfl
@[simp] theorem State.setTransfer_ingest (v : Option Transfer) : (s.setTransfer v).ingest = s.ingest := rfl
@[simp] theorem State.setTransfer_transfer (v : Option Transfer) : (s.setTransfer v).transfer = v := rfl
@[simp] theorem State.setTransfer_scan (v : Option Transfer) : (s.setTransfer v).scan = s.scan := rfl
@[simp] theorem State.setTransfer_report (v : Option Transfer) : (s.setTransfer v).report = s.report := rfl
@[simp] theorem State.setTransfer_notices (v : Option Transfer) : (s.setTransfer v).notices = s.notices := rfl
@[simp] theorem State.setTransfer_mem (v : Option Transfer) : (s.setTransfer v).mem = s.mem := rfl
@[simp] theorem State.setTransfer_draws (v : Option Transfer) : (s.setTransfer v).draws = s.draws := rfl

/-! ### setScan -/

@[simp] theorem State.setScan_pending (v : ScanOut) : (s.setScan v).pending = s.pending := rfl
@[simp] theorem State.setScan_held (v : ScanOut) : (s.setScan v).held = s.held := rfl
@[simp] theorem State.setScan_now (v : ScanOut) : (s.setScan v).now = s.now := rfl
@[simp] theorem State.setScan_loader (v : ScanOut) : (s.setScan v).loader = s.loader := rfl
@[simp] theorem State.setScan_timing (v : ScanOut) : (s.setScan v).timing = s.timing := rfl
@[simp] theorem State.setScan_role (v : ScanOut) : (s.setScan v).role = s.role := rfl
@[simp] theorem State.setScan_roster (v : ScanOut) : (s.setScan v).roster = s.roster := rfl
@[simp] theorem State.setScan_presentation (v : ScanOut) : (s.setScan v).presentation = s.presentation := rfl
@[simp] theorem State.setScan_slots (v : ScanOut) : (s.setScan v).slots = s.slots := rfl
@[simp] theorem State.setScan_ringIn (v : ScanOut) : (s.setScan v).ringIn = s.ringIn := rfl
@[simp] theorem State.setScan_ringOut (v : ScanOut) : (s.setScan v).ringOut = s.ringOut := rfl
@[simp] theorem State.setScan_link (v : ScanOut) : (s.setScan v).link = s.link := rfl
@[simp] theorem State.setScan_ingest (v : ScanOut) : (s.setScan v).ingest = s.ingest := rfl
@[simp] theorem State.setScan_transfer (v : ScanOut) : (s.setScan v).transfer = s.transfer := rfl
@[simp] theorem State.setScan_scan (v : ScanOut) : (s.setScan v).scan = v := rfl
@[simp] theorem State.setScan_report (v : ScanOut) : (s.setScan v).report = s.report := rfl
@[simp] theorem State.setScan_notices (v : ScanOut) : (s.setScan v).notices = s.notices := rfl
@[simp] theorem State.setScan_mem (v : ScanOut) : (s.setScan v).mem = s.mem := rfl
@[simp] theorem State.setScan_draws (v : ScanOut) : (s.setScan v).draws = s.draws := rfl

/-! ### setReport -/

@[simp] theorem State.setReport_pending (v : ReportUnit) : (s.setReport v).pending = s.pending := rfl
@[simp] theorem State.setReport_held (v : ReportUnit) : (s.setReport v).held = s.held := rfl
@[simp] theorem State.setReport_now (v : ReportUnit) : (s.setReport v).now = s.now := rfl
@[simp] theorem State.setReport_loader (v : ReportUnit) : (s.setReport v).loader = s.loader := rfl
@[simp] theorem State.setReport_timing (v : ReportUnit) : (s.setReport v).timing = s.timing := rfl
@[simp] theorem State.setReport_role (v : ReportUnit) : (s.setReport v).role = s.role := rfl
@[simp] theorem State.setReport_roster (v : ReportUnit) : (s.setReport v).roster = s.roster := rfl
@[simp] theorem State.setReport_presentation (v : ReportUnit) : (s.setReport v).presentation = s.presentation := rfl
@[simp] theorem State.setReport_slots (v : ReportUnit) : (s.setReport v).slots = s.slots := rfl
@[simp] theorem State.setReport_ringIn (v : ReportUnit) : (s.setReport v).ringIn = s.ringIn := rfl
@[simp] theorem State.setReport_ringOut (v : ReportUnit) : (s.setReport v).ringOut = s.ringOut := rfl
@[simp] theorem State.setReport_link (v : ReportUnit) : (s.setReport v).link = s.link := rfl
@[simp] theorem State.setReport_ingest (v : ReportUnit) : (s.setReport v).ingest = s.ingest := rfl
@[simp] theorem State.setReport_transfer (v : ReportUnit) : (s.setReport v).transfer = s.transfer := rfl
@[simp] theorem State.setReport_scan (v : ReportUnit) : (s.setReport v).scan = s.scan := rfl
@[simp] theorem State.setReport_report (v : ReportUnit) : (s.setReport v).report = v := rfl
@[simp] theorem State.setReport_notices (v : ReportUnit) : (s.setReport v).notices = s.notices := rfl
@[simp] theorem State.setReport_mem (v : ReportUnit) : (s.setReport v).mem = s.mem := rfl
@[simp] theorem State.setReport_draws (v : ReportUnit) : (s.setReport v).draws = s.draws := rfl

/-! ### setNotices -/

@[simp] theorem State.setNotices_pending (v : BitVec 16) : (s.setNotices v).pending = s.pending := rfl
@[simp] theorem State.setNotices_held (v : BitVec 16) : (s.setNotices v).held = s.held := rfl
@[simp] theorem State.setNotices_now (v : BitVec 16) : (s.setNotices v).now = s.now := rfl
@[simp] theorem State.setNotices_loader (v : BitVec 16) : (s.setNotices v).loader = s.loader := rfl
@[simp] theorem State.setNotices_timing (v : BitVec 16) : (s.setNotices v).timing = s.timing := rfl
@[simp] theorem State.setNotices_role (v : BitVec 16) : (s.setNotices v).role = s.role := rfl
@[simp] theorem State.setNotices_roster (v : BitVec 16) : (s.setNotices v).roster = s.roster := rfl
@[simp] theorem State.setNotices_presentation (v : BitVec 16) : (s.setNotices v).presentation = s.presentation := rfl
@[simp] theorem State.setNotices_slots (v : BitVec 16) : (s.setNotices v).slots = s.slots := rfl
@[simp] theorem State.setNotices_ringIn (v : BitVec 16) : (s.setNotices v).ringIn = s.ringIn := rfl
@[simp] theorem State.setNotices_ringOut (v : BitVec 16) : (s.setNotices v).ringOut = s.ringOut := rfl
@[simp] theorem State.setNotices_link (v : BitVec 16) : (s.setNotices v).link = s.link := rfl
@[simp] theorem State.setNotices_ingest (v : BitVec 16) : (s.setNotices v).ingest = s.ingest := rfl
@[simp] theorem State.setNotices_transfer (v : BitVec 16) : (s.setNotices v).transfer = s.transfer := rfl
@[simp] theorem State.setNotices_scan (v : BitVec 16) : (s.setNotices v).scan = s.scan := rfl
@[simp] theorem State.setNotices_report (v : BitVec 16) : (s.setNotices v).report = s.report := rfl
@[simp] theorem State.setNotices_notices (v : BitVec 16) : (s.setNotices v).notices = v := rfl
@[simp] theorem State.setNotices_mem (v : BitVec 16) : (s.setNotices v).mem = s.mem := rfl
@[simp] theorem State.setNotices_draws (v : BitVec 16) : (s.setNotices v).draws = s.draws := rfl

/-! ### setMem -/

@[simp] theorem State.setMem_pending (v : List Host.Cell) : (s.setMem v).pending = s.pending := rfl
@[simp] theorem State.setMem_held (v : List Host.Cell) : (s.setMem v).held = s.held := rfl
@[simp] theorem State.setMem_now (v : List Host.Cell) : (s.setMem v).now = s.now := rfl
@[simp] theorem State.setMem_loader (v : List Host.Cell) : (s.setMem v).loader = s.loader := rfl
@[simp] theorem State.setMem_timing (v : List Host.Cell) : (s.setMem v).timing = s.timing := rfl
@[simp] theorem State.setMem_role (v : List Host.Cell) : (s.setMem v).role = s.role := rfl
@[simp] theorem State.setMem_roster (v : List Host.Cell) : (s.setMem v).roster = s.roster := rfl
@[simp] theorem State.setMem_presentation (v : List Host.Cell) : (s.setMem v).presentation = s.presentation := rfl
@[simp] theorem State.setMem_slots (v : List Host.Cell) : (s.setMem v).slots = s.slots := rfl
@[simp] theorem State.setMem_ringIn (v : List Host.Cell) : (s.setMem v).ringIn = s.ringIn := rfl
@[simp] theorem State.setMem_ringOut (v : List Host.Cell) : (s.setMem v).ringOut = s.ringOut := rfl
@[simp] theorem State.setMem_link (v : List Host.Cell) : (s.setMem v).link = s.link := rfl
@[simp] theorem State.setMem_ingest (v : List Host.Cell) : (s.setMem v).ingest = s.ingest := rfl
@[simp] theorem State.setMem_transfer (v : List Host.Cell) : (s.setMem v).transfer = s.transfer := rfl
@[simp] theorem State.setMem_scan (v : List Host.Cell) : (s.setMem v).scan = s.scan := rfl
@[simp] theorem State.setMem_report (v : List Host.Cell) : (s.setMem v).report = s.report := rfl
@[simp] theorem State.setMem_notices (v : List Host.Cell) : (s.setMem v).notices = s.notices := rfl
@[simp] theorem State.setMem_mem (v : List Host.Cell) : (s.setMem v).mem = v := rfl
@[simp] theorem State.setMem_draws (v : List Host.Cell) : (s.setMem v).draws = s.draws := rfl

/-! ### setDraws -/

@[simp] theorem State.setDraws_pending (v : Nat) : (s.setDraws v).pending = s.pending := rfl
@[simp] theorem State.setDraws_held (v : Nat) : (s.setDraws v).held = s.held := rfl
@[simp] theorem State.setDraws_now (v : Nat) : (s.setDraws v).now = s.now := rfl
@[simp] theorem State.setDraws_loader (v : Nat) : (s.setDraws v).loader = s.loader := rfl
@[simp] theorem State.setDraws_timing (v : Nat) : (s.setDraws v).timing = s.timing := rfl
@[simp] theorem State.setDraws_role (v : Nat) : (s.setDraws v).role = s.role := rfl
@[simp] theorem State.setDraws_roster (v : Nat) : (s.setDraws v).roster = s.roster := rfl
@[simp] theorem State.setDraws_presentation (v : Nat) : (s.setDraws v).presentation = s.presentation := rfl
@[simp] theorem State.setDraws_slots (v : Nat) : (s.setDraws v).slots = s.slots := rfl
@[simp] theorem State.setDraws_ringIn (v : Nat) : (s.setDraws v).ringIn = s.ringIn := rfl
@[simp] theorem State.setDraws_ringOut (v : Nat) : (s.setDraws v).ringOut = s.ringOut := rfl
@[simp] theorem State.setDraws_link (v : Nat) : (s.setDraws v).link = s.link := rfl
@[simp] theorem State.setDraws_ingest (v : Nat) : (s.setDraws v).ingest = s.ingest := rfl
@[simp] theorem State.setDraws_transfer (v : Nat) : (s.setDraws v).transfer = s.transfer := rfl
@[simp] theorem State.setDraws_scan (v : Nat) : (s.setDraws v).scan = s.scan := rfl
@[simp] theorem State.setDraws_report (v : Nat) : (s.setDraws v).report = s.report := rfl
@[simp] theorem State.setDraws_notices (v : Nat) : (s.setDraws v).notices = s.notices := rfl
@[simp] theorem State.setDraws_mem (v : Nat) : (s.setDraws v).mem = s.mem := rfl
@[simp] theorem State.setDraws_draws (v : Nat) : (s.setDraws v).draws = v := rfl

/-! ### raise -/

@[simp] theorem State.raise_pending (n : Notice) : (s.raise n).pending = s.pending := rfl
@[simp] theorem State.raise_held (n : Notice) : (s.raise n).held = s.held := rfl
@[simp] theorem State.raise_now (n : Notice) : (s.raise n).now = s.now := rfl
@[simp] theorem State.raise_loader (n : Notice) : (s.raise n).loader = s.loader := rfl
@[simp] theorem State.raise_timing (n : Notice) : (s.raise n).timing = s.timing := rfl
@[simp] theorem State.raise_role (n : Notice) : (s.raise n).role = s.role := rfl
@[simp] theorem State.raise_roster (n : Notice) : (s.raise n).roster = s.roster := rfl
@[simp] theorem State.raise_presentation (n : Notice) : (s.raise n).presentation = s.presentation := rfl
@[simp] theorem State.raise_slots (n : Notice) : (s.raise n).slots = s.slots := rfl
@[simp] theorem State.raise_ringIn (n : Notice) : (s.raise n).ringIn = s.ringIn := rfl
@[simp] theorem State.raise_ringOut (n : Notice) : (s.raise n).ringOut = s.ringOut := rfl
@[simp] theorem State.raise_link (n : Notice) : (s.raise n).link = s.link := rfl
@[simp] theorem State.raise_ingest (n : Notice) : (s.raise n).ingest = s.ingest := rfl
@[simp] theorem State.raise_transfer (n : Notice) : (s.raise n).transfer = s.transfer := rfl
@[simp] theorem State.raise_scan (n : Notice) : (s.raise n).scan = s.scan := rfl
@[simp] theorem State.raise_report (n : Notice) : (s.raise n).report = s.report := rfl
@[simp] theorem State.raise_notices (n : Notice) : (s.raise n).notices = s.notices ||| BitVec.twoPow 16 n.bit := rfl
@[simp] theorem State.raise_mem (n : Notice) : (s.raise n).mem = s.mem := rfl
@[simp] theorem State.raise_draws (n : Notice) : (s.raise n).draws = s.draws := rfl

end Sys2Proof.Machine
end

