-- ==== Sys2Proof/Laws/Frames.lean ====
section
/-! SUPPORT. What each shared operation may change: one frame for each, to be cited instead of its definition. -/

namespace Sys2Proof

open Sys2Proof.Machine

theorem Part.same_refl (p : Part) (s : State) : p.same s s := by
  cases p <;> simp [Part.same]

theorem Part.same_trans {p : Part} {s t u : State} (h : p.same s t) (k : p.same t u) : p.same s u := by
  cases p <;> simp only [Part.same] at * <;> first | exact h.trans k | exact fun a => (h a).trans (k a)

theorem Frame.refl (l : List Part) (s : State) : Frame l s s :=
  ⟨rfl, fun p _ => p.same_refl s⟩

theorem Frame.trans {l : List Part} {s t u : State} (h : Frame l s t) (k : Frame l t u) : Frame l s u :=
  ⟨h.1.trans k.1, fun p hp => Part.same_trans (h.2 p hp) (k.2 p hp)⟩

theorem Frame.mono {l m : List Part} {s t : State} (h : Frame l s t) (sub : ∀ p ∈ l, p ∈ m) : Frame m s t :=
  ⟨h.1, fun p hp => h.2 p fun hl => hp (sub p hl)⟩

theorem Frame.ite {l : List Part} {s t u : State} {c : Prop} [Decidable c] (h : Frame l s t) (k : Frame l s u) :
    Frame l s (if c then t else u) := by
  split <;> assumption

/-! ### The setters -/

theorem Frame.setHeld (s : State) (v : Bool) : Frame [.held] s (s.setHeld v) :=
  ⟨rfl, fun p hp => by cases p <;> first | exact absurd (by decide) hp | simp [Part.same]⟩

theorem Frame.setNow (s : State) (v : Tick) : Frame [.now] s (s.setNow v) :=
  ⟨rfl, fun p hp => by cases p <;> first | exact absurd (by decide) hp | simp [Part.same]⟩

theorem Frame.setLoader (s : State) (v : Loader) : Frame [.loader] s (s.setLoader v) :=
  ⟨rfl, fun p hp => by cases p <;> first | exact absurd (by decide) hp | simp [Part.same]⟩

theorem Frame.setTiming (s : State) (v : TimingUnit) : Frame [.timing] s (s.setTiming v) :=
  ⟨rfl, fun p hp => by cases p <;> first | exact absurd (by decide) hp | simp [Part.same]⟩

theorem Frame.setRole (s : State) (v : RoleUnit) : Frame [.role] s (s.setRole v) :=
  ⟨rfl, fun p hp => by cases p <;> first | exact absurd (by decide) hp | simp [Part.same]⟩

theorem Frame.setRoster (s : State) (v : RosterUnit) : Frame [.roster] s (s.setRoster v) :=
  ⟨rfl, fun p hp => by cases p <;> first | exact absurd (by decide) hp | simp [Part.same]⟩

theorem Frame.setPresentation (s : State) (v : Presentation) : Frame [.presentation] s (s.setPresentation v) :=
  ⟨rfl, fun p hp => by cases p <;> first | exact absurd (by decide) hp | simp [Part.same]⟩

theorem Frame.setSlots (s : State) (v : SlotManager) : Frame [.slots] s (s.setSlots v) :=
  ⟨rfl, fun p hp => by cases p <;> first | exact absurd (by decide) hp | simp [Part.same]⟩

theorem Frame.setRingIn (s : State) (v : RingReceiver) : Frame [.ringIn] s (s.setRingIn v) :=
  ⟨rfl, fun p hp => by cases p <;> first | exact absurd (by decide) hp | simp [Part.same]⟩

theorem Frame.setRingOut (s : State) (v : RingTransmitter) : Frame [.ringOut] s (s.setRingOut v) :=
  ⟨rfl, fun p hp => by cases p <;> first | exact absurd (by decide) hp | simp [Part.same]⟩

theorem Frame.setLink (s : State) (v : LinkReceiver) : Frame [.link] s (s.setLink v) :=
  ⟨rfl, fun p hp => by cases p <;> first | exact absurd (by decide) hp | simp [Part.same]⟩

theorem Frame.setIngest (s : State) (v : Assembler) : Frame [.ingest] s (s.setIngest v) :=
  ⟨rfl, fun p hp => by cases p <;> first | exact absurd (by decide) hp | simp [Part.same]⟩

theorem Frame.setTransfer (s : State) (v : Option Transfer) : Frame [.transfer] s (s.setTransfer v) :=
  ⟨rfl, fun p hp => by cases p <;> first | exact absurd (by decide) hp | simp [Part.same]⟩

theorem Frame.setScan (s : State) (v : ScanOut) : Frame [.scan] s (s.setScan v) :=
  ⟨rfl, fun p hp => by cases p <;> first | exact absurd (by decide) hp | simp [Part.same]⟩

theorem Frame.setReport (s : State) (v : ReportUnit) : Frame [.report] s (s.setReport v) :=
  ⟨rfl, fun p hp => by cases p <;> first | exact absurd (by decide) hp | simp [Part.same]⟩

theorem Frame.setNotices (s : State) (v : BitVec 16) : Frame [.notices] s (s.setNotices v) :=
  ⟨rfl, fun p hp => by cases p <;> first | exact absurd (by decide) hp | simp [Part.same]⟩

theorem Frame.setMem (s : State) (v : List Host.Cell) : Frame [.mem] s (s.setMem v) :=
  ⟨rfl, fun p hp => by cases p <;> first | exact absurd (by decide) hp | simp [Part.same]⟩

theorem Frame.setDraws (s : State) (v : Nat) : Frame [.draws] s (s.setDraws v) :=
  ⟨rfl, fun p hp => by cases p <;> first | exact absurd (by decide) hp | simp [Part.same]⟩

theorem Frame.raise (s : State) (n : Notice) : Frame [.notices] s (s.raise n) :=
  Frame.setNotices _ _
/-! ### What passes between commands -/

theorem Frame.passTicks (s : State) (d : Tick) : Frame [.now] s (s.passTicks d) := by
  unfold State.passTicks
  split
  · exact .setNow _ _
  · exact .ite (.setNow _ _) (.refl _ _)

theorem Frame.elapse (s : State) (e : Elapsed) : Frame [.now, .ringIn, .link, .loader] s (s.elapse e) := by
  unfold State.elapse
  exact (((Frame.passTicks s _).mono (by decide)).trans ((Frame.setRingIn _ _).mono (by decide))).trans
    (((Frame.setLink _ _).mono (by decide)).trans ((Frame.setLoader _ _).mono (by decide)))

/-! ### Frame memory and scan-out -/

theorem Frame.grant (s : State) : Frame [.ingest, .transfer, .scan] s s.grant := by
  unfold State.grant
  split
  · exact .refl _ _
  · split
    · exact ((Frame.setScan _ _).mono (by decide)).trans ((Frame.setTransfer _ _).mono (by decide))
    · split
      · exact .refl _ _
      · exact ((Frame.setIngest _ _).mono (by decide)).trans ((Frame.setTransfer _ _).mono (by decide))

theorem Frame.requestFetch (s : State) (k : Nat) : Frame [.ingest, .transfer, .scan] s (s.requestFetch k) :=
  ((Frame.setScan _ _).mono (by decide)).trans (.grant _)

theorem Frame.beginLine (s : State) (c : Settings) (f : Nat) :
    Frame [.ingest, .transfer, .scan] s (s.beginLine c f) := by
  unfold State.beginLine
  refine .ite (.ite (.requestFetch _ _) (.ite (.requestFetch _ _) (.refl _ _))) (.ite ?_ ?_)
  · exact .ite (((Frame.setScan _ _).mono (by decide)).trans (.requestFetch _ _))
      ((Frame.setScan _ _).mono (by decide))
  · exact (Frame.setScan _ _).mono (by decide)

theorem Frame.transferDone (s : State) (c : Settings) (t : Transfer) :
    Frame [.ingest, .transfer, .scan, .mem, .slots] s (s.transferDone c t) := by
  unfold State.transferDone
  cases t with
  | write w =>
    exact ((Frame.setTransfer s none).mono (by decide)).trans (((Frame.setMem _ _).mono (by decide)).trans
      (((Frame.setSlots _ _).mono (by decide)).trans ((Frame.grant _).mono (by decide))))
  | fetch i line =>
    exact ((Frame.setTransfer s none).mono (by decide)).trans (((Frame.setScan _ _).mono (by decide)).trans
      ((Frame.grant _).mono (by decide)))

/-! ### Ring transmission -/

theorem Frame.setRing (s : State) (r : RingState) : Frame [.ringOut, .notices] s (s.setRing r) := by
  unfold State.setRing
  exact .ite ((Frame.setRingOut _ _).mono (by decide))
    (((Frame.setRingOut _ _).mono (by decide)).trans ((Frame.raise _ _).mono (by decide)))

theorem Frame.expireEntries (s : State) (n : Nat) (rest : List Outstanding) :
    Frame [.ringOut, .notices] s (s.expireEntries n rest) := by
  unfold State.expireEntries
  exact .ite (.refl _ _) (((Frame.setRingOut _ _).mono (by decide)).trans (.setRing _ _))

theorem Frame.expireOld (s : State) : Frame [.ringOut, .notices] s s.expireOld :=
  .expireEntries _ _ _

theorem Frame.joinOutstanding (s : State) (o : Outstanding) :
    Frame [.ringOut, .notices] s (s.joinOutstanding o) := by
  unfold State.joinOutstanding
  exact (Frame.ite (.expireEntries _ _ _) (.refl _ _)).trans ((Frame.setRingOut _ _).mono (by decide))

theorem Frame.departForwarded (s : State) (p : RingPacket) (rest : List RingPacket) :
    Frame [.ringOut] s (s.departForwarded p rest) :=
  .setRingOut _ _

theorem Frame.departOwn (s : State) (c : Settings) (k : OwnKind) (payload : List Byte) (d : BitVec 16) :
    Frame [.ringOut, .notices] s (s.departOwn c k payload d) :=
  ((Frame.setRingOut _ _).mono (by decide)).trans (.joinOutstanding _ _)

theorem Frame.ownStandingDeparts (s : State) (q : Byte) : Frame [.roster, .notices] s (s.ownStandingDeparts q) := by
  unfold State.ownStandingDeparts
  exact .ite (((Frame.setRoster _ _).mono (by decide)).trans ((Frame.raise _ _).mono (by decide)))
    ((Frame.setRoster _ _).mono (by decide))

theorem Frame.chooseOut (s : State) : Frame [.ringOut, .roster, .notices] s s.chooseOut := by
  unfold State.chooseOut
  split
  · exact .refl _ _
  · split
    · exact (Frame.departForwarded _ _ _).mono (by decide)
    · split
      · exact .refl _ _
      · refine .ite ?_ ?_
        · exact ((Frame.setRingOut _ _).mono (by decide)).trans ((Frame.departOwn _ _ _ _ _).mono (by decide))
        · split
          · exact ((Frame.setRingOut _ _).mono (by decide)).trans ((Frame.departOwn _ _ _ _ _).mono (by decide))
          · refine .ite ?_ (.refl _ _)
            exact ((Frame.setRingOut _ _).mono (by decide)).trans
              (((Frame.departOwn _ _ _ _ _).mono (by decide)).trans ((Frame.ownStandingDeparts _ _).mono (by decide)))

theorem Frame.sendDone (s : State) : Frame [.ringOut, .roster, .notices] s s.sendDone := by
  unfold State.sendDone
  split
  · exact .refl _ _
  · exact ((Frame.setRingOut _ _).mono (by decide)).trans (.chooseOut _)

theorem Frame.offerBeat (s : State) (b : Beat) : Frame [.ringOut, .roster, .notices] s (s.offerBeat b) :=
  ((Frame.setRingOut _ _).mono (by decide)).trans (.chooseOut _)

theorem Frame.offerStanding (s : State) : Frame [.ringOut, .roster, .notices] s s.offerStanding :=
  ((Frame.setRingOut _ _).mono (by decide)).trans (.chooseOut _)

theorem Frame.offerLeave (s : State) : Frame [.ringOut, .roster, .notices] s s.offerLeave :=
  ((Frame.setRingOut _ _).mono (by decide)).trans (.chooseOut _)

theorem Frame.takeBackBeat (s : State) : Frame [.ringOut] s s.takeBackBeat := by
  unfold State.takeBackBeat
  split
  · exact .setRingOut _ _
  · exact .refl _ _

theorem Frame.takeBackStanding (s : State) : Frame [.ringOut] s s.takeBackStanding := by
  unfold State.takeBackStanding
  exact .ite (.setRingOut _ _) (.refl _ _)

theorem Frame.ownReturned (s : State) (q : Byte) : Frame [.ringOut, .roster, .notices] s (s.ownReturned q) := by
  unfold State.ownReturned
  split
  · exact ((Frame.setRingOut _ _).mono (by decide)).trans ((Frame.setRing _ _).mono (by decide))
  · exact ((Frame.setRingOut _ _).mono (by decide)).trans
      (((Frame.setRoster _ _).mono (by decide)).trans ((Frame.raise _ _).mono (by decide)))

/-! ### Timing and role -/

theorem Frame.setLock (s : State) (l : Lock) : Frame [.timing, .notices] s (s.setLock l) := by
  unfold State.setLock
  exact .ite ((Frame.setTiming _ _).mono (by decide))
    (((Frame.setTiming _ _).mono (by decide)).trans ((Frame.raise _ _).mono (by decide)))

theorem Frame.examineLock (s : State) (t : Tick) : Frame [.timing, .notices] s (s.examineLock t) := by
  have one (u : TimingUnit) (l : Lock) : Frame [.timing, .notices] s ((s.setTiming u).setLock l) :=
    ((Frame.setTiming _ _).mono (by decide)).trans (.setLock _ _)
  unfold State.examineLock
  split
  · exact .ite (one _ _) (.refl _ _)
  · exact .ite (one _ _) (.refl _ _)
  · exact .ite (.refl _ _) (.ite (one _ _) ((Frame.setTiming _ _).mono (by decide)))
  · exact .refl _ _
  · exact .refl _ _

theorem Frame.timingFrameStart (s : State) (c : Settings) (t : Tick) :
    Frame [.now, .timing, .notices] s (s.timingFrameStart c t) :=
  ((Frame.setNow _ _).mono (by decide)).trans (((Frame.setTiming _ _).mono (by decide)).trans
    (((Frame.examineLock _ _).mono (by decide)).trans ((Frame.setTiming _ _).mono (by decide))))

theorem Frame.timingClaim (s : State) : Frame [.timing, .notices] s s.timingClaim :=
  ((Frame.setTiming _ _).mono (by decide)).trans (.setLock _ _)

theorem Frame.timingDepart (s : State) : Frame [.timing, .notices] s s.timingDepart :=
  ((Frame.setTiming _ _).mono (by decide)).trans (.setLock _ _)

theorem Frame.timedBeat (s : State) (c : Settings) (b : Epoch) (a : Tick) (d : BitVec 16) (t : FrameTimer) :
    Frame [.timing, .notices] s (s.timedBeat c b a d t).1 := by
  have one (u : TimingUnit) (l : Lock) : Frame [.timing, .notices] s ((s.setTiming u).setLock l) :=
    ((Frame.setTiming _ _).mono (by decide)).trans (.setLock _ _)
  have two (u : TimingUnit) : Frame [.timing, .notices] s (s.setTiming u) := (Frame.setTiming _ _).mono (by decide)
  unfold State.timedBeat
  simp only []
  split
  · exact one _ _
  · split
    · exact one _ _
    · exact one _ _
  · split
    · exact one _ _
    · exact one _ _
  · split
    · exact two _
    · split
      · exact two _
      · exact one _ _
  · exact .refl _ _

theorem Frame.timingBeat (s : State) (c : Settings) (b : Epoch) (a : Tick) (d : BitVec 16) :
    Frame [.timing, .notices] s (s.timingBeat c b a d).1 := by
  unfold State.timingBeat
  split
  · exact (Frame.setTiming _ _).mono (by decide)
  · split
    · exact .timedBeat _ _ _ _ _ _
    · exact .refl _ _

theorem Frame.claim (s : State) (c : Settings) : Frame [.role, .timing, .notices] s (s.claim c) :=
  ((Frame.setRole _ _).mono (by decide)).trans
    (((Frame.timingClaim _).mono (by decide)).trans ((Frame.raise _ _).mono (by decide)))

theorem Frame.roleFrameStart (s : State) (c : Settings) :
    Frame [.role, .timing, .notices] s (s.roleFrameStart c) := by
  have one (u : RoleUnit) : Frame [.role, .timing, .notices] s (s.setRole u) := (Frame.setRole _ _).mono (by decide)
  unfold State.roleFrameStart
  simp only []
  split
  · refine .ite (.ite ((one _).trans (.claim _ _)) ?_) ((one _).trans ((Frame.setRole _ _).mono (by decide)))
    exact (one _).trans (((Frame.setRole _ _).mono (by decide)).trans ((Frame.raise _ _).mono (by decide)))
  · exact .ite ((one _).trans (.claim _ _)) (one _)
  · exact one _
  · exact one _

theorem Frame.departOrigin (s : State) (r : Role) :
    Frame [.role, .timing, .ringOut, .notices] s (s.departOrigin r) :=
  ((Frame.setRole _ _).mono (by decide)).trans (((Frame.timingDepart _).mono (by decide)).trans
    (((Frame.takeBackBeat _).mono (by decide)).trans ((Frame.raise _ _).mono (by decide))))

theorem Frame.capableMember (s : State) (c : Settings) (a : Address) :
    Frame [.role, .timing, .ringOut, .notices] s (s.capableMember c a) := by
  unfold State.capableMember
  exact .ite ((Frame.departOrigin _ _).trans ((Frame.setRole _ _).mono (by decide))) (.refl _ _)

theorem Frame.acceptBeat (s : State) (c : Settings) (h : RingHeader) (b : Beat) (a : Tick) :
    Frame [.role, .timing, .presentation, .notices] s (s.acceptBeat c h b a).1 :=
  ((Frame.setRole _ _).mono (by decide)).trans
    (((Frame.timingBeat _ _ _ _ _).mono (by decide)).trans ((Frame.setPresentation _ _).mono (by decide)))

/-! ### The presentation step and the parts of a frame start -/

theorem Frame.presents (s : State) (f : FrameNo) (i : Nat) (m : SlotManager) :
    Frame [.presentation, .slots, .scan, .ingest, .transfer] s (s.presents f i m) :=
  ((Frame.setSlots _ _).mono (by decide)).trans (((Frame.setPresentation _ _).mono (by decide)).trans
    (((Frame.setScan _ _).mono (by decide)).trans ((Frame.grant _).mono (by decide))))

theorem Frame.presentationStep (s : State) :
    Frame [.presentation, .slots, .scan, .ingest, .transfer, .notices] s s.presentationStep := by
  have one (p : Presentation) :
      Frame [.presentation, .slots, .scan, .ingest, .transfer, .notices] s (s.setPresentation p) :=
    (Frame.setPresentation _ _).mono (by decide)
  unfold State.presentationStep
  split
  · exact one _
  · refine .ite ?_ (.ite (one _) (one _))
    unfold State.applyDecision
    simp only []
    refine .ite (one _) (.ite (one _) ?_)
    split
    · exact (Frame.presents _ _ _ _).mono (by decide)
    · exact (one _).trans ((Frame.raise _ _).mono (by decide))

theorem Frame.composition (s : State) (c : Settings) (d : Tick) :
    Frame [.now, .presentation, .ringOut, .roster, .notices] s (s.composition c d) := by
  unfold State.composition
  refine .ite ?_ (.refl _ _)
  exact ((Frame.setPresentation _ _).mono (by decide)).trans
    (((Frame.passTicks _ _).mono (by decide)).trans ((Frame.offerBeat _ _).mono (by decide)))

theorem Frame.standingOffer (s : State) : Frame [.ringOut, .roster, .notices] s s.standingOffer := by
  unfold State.standingOffer
  split
  · exact .offerStanding _
  · exact .refl _ _
  · exact .refl _ _
  · exact .refl _ _

/-- What a frame start may change at the blocks. -/
def frameStartParts : List Part :=
  [.now, .timing, .role, .roster, .presentation, .slots, .ringOut, .ingest, .transfer, .scan, .notices]

theorem Frame.framePart (s : State) (c : Settings) (cut : Bool) (d : Tick) (p : FramePart) :
    Frame frameStartParts s (s.framePart c cut d p) := by
  cases p
  · exact (Frame.roleFrameStart s c).mono (by decide)
  · exact (Frame.setScan s _).mono (by decide)
  · exact (Frame.presentationStep s).mono (by decide)
  · exact (Frame.beginLine s c 0).mono (by decide)
  · exact (Frame.composition s c d).mono (by decide)
  · exact (Frame.setRoster s _).mono (by decide)
  · exact (Frame.standingOffer s).mono (by decide)
  · exact (Frame.expireOld s).mono (by decide)

theorem Frame.frameParts (c : Settings) (cut : Bool) (d : Tick) (l : List FramePart) (s : State) :
    Frame frameStartParts s (l.foldl (State.framePart c cut d) s) := by
  induction l generalizing s with
  | nil => exact .refl _ _
  | cons p l ih => exact (Frame.framePart s c cut d p).trans (ih _)

theorem Frame.frameStartAt (s : State) (t : Tick) (o : FrameOrder) :
    Frame frameStartParts s (s.frameStartAt t o) := by
  unfold State.frameStartAt
  split
  · exact ((Frame.timingFrameStart s _ t).mono (by decide)).trans (.frameParts _ _ _ _ _)
  · exact .refl _ _

theorem Frame.nextFrameStart (s : State) (o : FrameOrder) : Frame frameStartParts s (s.nextFrameStart o) := by
  unfold State.nextFrameStart
  split
  · exact .frameStartAt _ _ _
  · exact .refl _ _

/-! ### The source side -/

theorem Frame.ingestError (s : State) (u : Assembler) : Frame [.ingest, .notices] s (s.ingestError u) :=
  ((Frame.setIngest _ _).mono (by decide)).trans ((Frame.raise _ _).mono (by decide))

theorem Frame.abandonSlot (s : State) (i : Nat) : Frame [.ingest, .slots] s (s.abandonSlot i) :=
  ((Frame.setIngest _ _).mono (by decide)).trans ((Frame.setSlots _ _).mono (by decide))

theorem Frame.abandonCurrent (s : State) : Frame [.ingest, .slots] s s.abandonCurrent := by
  unfold State.abandonCurrent
  split
  · exact .abandonSlot _ _
  · exact .refl _ _

theorem Frame.damageCurrent (s : State) : Frame [.slots] s s.damageCurrent := by
  unfold State.damageCurrent
  split
  · exact .setSlots _ _
  · exact .refl _ _

theorem Frame.endInProgress (s : State) : Frame [.ingest, .slots, .notices] s s.endInProgress := by
  unfold State.endInProgress
  exact .ite (((Frame.abandonCurrent _).mono (by decide)).trans ((Frame.ingestError _ _).mono (by decide)))
    (.refl _ _)

theorem Frame.takeFrameBegin (s : State) (n : FrameNo) :
    Frame [.ingest, .slots, .notices] s (s.takeFrameBegin n) := by
  unfold State.takeFrameBegin
  refine (Frame.endInProgress s).trans ?_
  refine .ite ((Frame.ingestError _ _).mono (by decide)) ?_
  split
  · exact (Frame.ingestError _ _).mono (by decide)
  · exact ((Frame.setSlots _ _).mono (by decide)).trans ((Frame.setIngest _ _).mono (by decide))

theorem Frame.offerLine (s : State) (line : Nat) (p : List Pixel) :
    Frame [.ingest, .slots, .transfer, .scan, .notices] s (s.offerLine line p) := by
  unfold State.offerLine
  simp only []
  split
  · exact (Frame.setIngest _ _).mono (by decide)
  · refine .ite ?_ ?_
    · exact ((Frame.setIngest _ _).mono (by decide)).trans
        (((Frame.setSlots _ _).mono (by decide)).trans ((Frame.grant _).mono (by decide)))
    · exact ((Frame.ingestError _ _).mono (by decide)).trans ((Frame.damageCurrent _).mono (by decide))

theorem Frame.assemblerReset (s : State) : Frame [.ingest, .slots] s s.assemblerReset :=
  ((Frame.setIngest _ _).mono (by decide)).trans
    (((Frame.setSlots _ _).mono (by decide)).trans ((Frame.setIngest _ _).mono (by decide)))

/-! ### Reports -/

theorem Frame.beginReport (s : State) : Frame [.report, .notices] s s.beginReport := by
  unfold State.beginReport
  split
  · exact ((Frame.setReport _ _).mono (by decide)).trans
      (((Frame.setReport _ _).mono (by decide)).trans ((Frame.setNotices _ _).mono (by decide)))
  · exact .refl _ _

theorem Frame.takePoll (s : State) (h : LinkHeader) : Frame [.report, .notices] s (s.takePoll h) := by
  unfold State.takePoll
  split
  · exact (Frame.setReport _ _).mono (by decide)
  · exact .ite (((Frame.setReport _ _).mono (by decide)).trans ((Frame.raise _ _).mono (by decide)))
      (((Frame.setReport _ _).mono (by decide)).trans (.beginReport _))

end Sys2Proof
end

