-- ==== Sys2Proof/Laws/Memory.lean ====
section
/-! SUPPORT. The frame memory: every operation keeps the canonical form, and what a byte reads as after a write. -/

namespace Sys2Proof.Machine

/-! ### Cells -/

theorem Memory.mem_cells {a : Nat} {bs : List Byte} {c : Host.Cell} (h : c ∈ Memory.cells a bs) :
    a ≤ c.1 ∧ c.1 < a + bs.length ∧ c.2 ≠ Config.unlistedByte := by
  induction bs generalizing a with
  | nil => simp [Memory.cells] at h
  | cons b bs ih =>
    simp only [Memory.cells] at h
    split at h
    · have := ih h; simp only [List.length_cons]; exact ⟨by omega, by omega, this.2.2⟩
    · rcases List.mem_cons.1 h with rfl | h
      · simp_all
      · have := ih h; simp only [List.length_cons]; exact ⟨by omega, by omega, this.2.2⟩

theorem Memory.cells_sorted (a : Nat) (bs : List Byte) :
    (Memory.cells a bs).Pairwise (fun x y => x.1 < y.1) := by
  induction bs generalizing a with
  | nil => simp [Memory.cells]
  | cons b bs ih =>
    simp only [Memory.cells]
    split
    · exact ih _
    · refine List.pairwise_cons.2 ⟨fun c hc => ?_, ih _⟩
      have := Memory.mem_cells hc
      simp only
      omega

/-! ### The canonical form -/

theorem Memory.wf_write {m : List Host.Cell} {a : Nat} {bs : List Byte} (h : Memory.wf m)
    (inside : a + bs.length ≤ Config.frameMemoryBytes) : Memory.wf (Memory.write m a bs) := by
  refine ⟨?_, ?_⟩
  · simp only [Memory.write, List.append_assoc]
    refine List.pairwise_append.2 ⟨h.1.filter _, List.pairwise_append.2 ⟨Memory.cells_sorted _ _, h.1.filter _, ?_⟩, ?_⟩
    · intro x hx y hy
      have hx := Memory.mem_cells hx
      simp only [List.mem_filter, decide_eq_true_eq] at hy
      omega
    · intro x hx y hy
      simp only [List.mem_filter, decide_eq_true_eq] at hx
      rcases List.mem_append.1 hy with hy | hy
      · have := Memory.mem_cells hy; omega
      · simp only [List.mem_filter, decide_eq_true_eq] at hy; omega
  · intro c hc
    simp only [Memory.write, List.mem_append, List.mem_filter, decide_eq_true_eq] at hc
    rcases hc with (hc | hc) | hc
    · exact h.2 c hc.1
    · have := Memory.mem_cells hc
      exact ⟨by omega, this.2.2⟩
    · exact h.2 c hc.1

theorem length_flatMap_pixelBytes (ps : List Pixel) : (ps.flatMap pixelBytes).length = 3 * ps.length := by
  induction ps with
  | nil => rfl
  | cons p ps ih => simp [pixelBytes, bytes24, ih]; omega

theorem length_lineBytes (w : Nat) (ps : List Pixel) : (lineBytes w ps).length = w * 3 := by
  rw [lineBytes, length_flatMap_pixelBytes]
  simp
  omega

theorem Memory.wf_writeLine {c : Settings} {m : List Host.Cell} {slot line : Nat} {ps : List Pixel}
    (h : Memory.wf m) (inside : c.lineInside slot line = true) :
    Memory.wf (Memory.writeLine c m slot line ps) := by
  refine Memory.wf_write h ?_
  rw [length_lineBytes]
  simpa [Settings.lineInside] using inside

theorem Memory.wf_reset : Memory.wf State.reset.mem := by
  simp [State.reset, State.afterReset, Memory.wf]

/-- Device reset keeps the form, a cut write included. -/
theorem State.wf_deviceReset {s : State} (h : Memory.wf s.mem) : Memory.wf s.deviceReset.mem := by
  unfold State.deviceReset
  split
  · next a n e =>
    refine Memory.wf_write h ?_
    unfold State.cutWrite at e
    split at e
    · split at e
      · next hin =>
        simp only [Option.some.injEq, Prod.mk.injEq] at e
        simp only [Settings.lineInside, decide_eq_true_eq] at hin
        simp only [cutBytes, List.length_map, List.length_range]
        omega
      · simp at e
    · simp at e
  · exact h

/-! ### Reading after a write -/

theorem lookup_append {α β : Type} [BEq α] (l₁ l₂ : List (α × β)) (a : α) :
    (l₁ ++ l₂).lookup a = (l₁.lookup a).or (l₂.lookup a) := by
  induction l₁ with
  | nil => simp
  | cons x l ih =>
    obtain ⟨k, v⟩ := x
    simp only [List.cons_append, List.lookup_cons]
    split <;> simp_all

theorem lookup_filter_of {m : List Host.Cell} {p : Nat → Bool} {a : Nat} (h : p a = true) :
    (m.filter fun c => p c.1).lookup a = m.lookup a := by
  induction m with
  | nil => rfl
  | cons x m ih =>
    obtain ⟨k, v⟩ := x
    simp only [List.filter_cons, List.lookup_cons]
    by_cases hk : a = k
    · subst hk; simp [h]
    · have : (a == k) = false := by simpa using hk
      rw [this]
      split
      · rw [List.lookup_cons, this]; exact ih
      · exact ih

theorem lookup_eq_none_of {m : List Host.Cell} {a : Nat} (h : ∀ c ∈ m, c.1 ≠ a) : m.lookup a = none := by
  induction m with
  | nil => rfl
  | cons x m ih =>
    obtain ⟨k, v⟩ := x
    have hk : (a == k) = false := by
      have := h (k, v) (by simp)
      simp only [beq_eq_false_iff_ne, ne_eq]
      exact fun e => this e.symm
    simp only [List.lookup_cons, hk]
    exact ih fun c hc => h c (by simp [hc])

theorem Memory.read_write_of_outside {m : List Host.Cell} {a x : Nat} {bs : List Byte}
    (h : x < a ∨ a + bs.length ≤ x) : Memory.read (Memory.write m a bs) x = Memory.read m x := by
  have hc : (Memory.cells a bs).lookup x = none :=
    lookup_eq_none_of fun c hc => by have := Memory.mem_cells hc; omega
  simp only [Memory.read, Memory.write, lookup_append, hc, Option.or_none]
  rcases h with h | h
  · rw [lookup_filter_of (p := fun k => decide (k < a)) (by simpa using h)]
    rw [lookup_eq_none_of (m := m.filter fun c => decide (a + bs.length ≤ c.1))
      (fun c hc => by simp only [List.mem_filter, decide_eq_true_eq] at hc; omega)]
    simp
  · rw [lookup_eq_none_of (m := m.filter fun c => decide (c.1 < a))
      (fun c hc => by simp only [List.mem_filter, decide_eq_true_eq] at hc; omega)]
    rw [lookup_filter_of (p := fun k => decide (a + bs.length ≤ k)) (by simpa using h)]
    simp

theorem Memory.lookup_cells {a i : Nat} {bs : List Byte} (h : i < bs.length) :
    ((Memory.cells a bs).lookup (a + i)).getD Config.unlistedByte = bs[i] := by
  induction bs generalizing a i with
  | nil => simp at h
  | cons b bs ih =>
    cases i with
    | zero =>
      simp only [Memory.cells, Nat.add_zero, List.getElem_cons_zero]
      split
      · next hb =>
        rw [lookup_eq_none_of fun c hc => by have := Memory.mem_cells hc; omega]
        simp [hb]
      · simp
    | succ i =>
      have hi : i < bs.length := by simpa using h
      have e : a + (i + 1) = a + 1 + i := by omega
      simp only [Memory.cells, List.getElem_cons_succ, e]
      split
      · exact ih hi
      · have : (a + 1 + i == a) = false := by simp; omega
        simp only [List.lookup_cons, this]
        exact ih hi

theorem Memory.read_write_inside {m : List Host.Cell} {a i : Nat} {bs : List Byte} (h : i < bs.length) :
    Memory.read (Memory.write m a bs) (a + i) = bs[i] := by
  rw [← Memory.lookup_cells (a := a) h]
  simp only [Memory.read, Memory.write, lookup_append]
  rw [lookup_eq_none_of (m := m.filter fun c => decide (c.1 < a))
    (fun c hc => by simp only [List.mem_filter, decide_eq_true_eq] at hc; omega)]
  rw [lookup_eq_none_of (m := m.filter fun c => decide (a + bs.length ≤ c.1))
    (fun c hc => by simp only [List.mem_filter, decide_eq_true_eq] at hc; omega)]
  simp

end Sys2Proof.Machine
end

