-- ==== Sys2Proof/Laws/Serial.lean ====
section
/-! SUPPORT. Serial order and saturating counters. -/

namespace Sys2Proof.Machine

theorem laterThan_irrefl (a : BitVec 16) : laterThan a a = false := by
  simp [laterThan]

theorem laterThan_ne {a b : BitVec 16} (h : laterThan a b = true) : a ≠ b := by
  rintro rfl
  simp [laterThan_irrefl] at h

theorem laterThan_asymm {a b : BitVec 16} (h : laterThan a b = true) : laterThan b a = false := by
  simp only [laterThan, decide_eq_true_eq, decide_eq_false_iff_not] at *
  bv_omega

theorem laterThan_succ (a : BitVec 16) : laterThan (a + 1) a = true := by
  simp only [laterThan, decide_eq_true_eq]
  bv_omega

/-- A counter never falls by a count, and stays at its ceiling. -/
theorem bump_toNat (c : Counter) : (bump c).toNat = min 65535 (c.toNat + 1) := by
  unfold bump
  split
  · next h => subst h; rfl
  · next h =>
    have : c.toNat ≠ 65535 := fun e => h (BitVec.eq_of_toNat_eq (by simpa using e))
    have := c.isLt
    rw [BitVec.toNat_add]
    simp
    omega

theorem bumpBy_toNat (n : Nat) (c : Counter) : (bumpBy n c).toNat = min 65535 (c.toNat + n) := by
  unfold bumpBy
  rw [BitVec.toNat_ofNat]
  omega

theorem bumpBy_zero (c : Counter) : bumpBy 0 c = c := by
  apply BitVec.eq_of_toNat_eq
  rw [bumpBy_toNat]
  have := c.isLt
  omega

end Sys2Proof.Machine
end

