-- ==== Sys2Proof/Laws/Ops.lean ====
section
/-! SUPPORT. What each command answers, and what each receiver does with a header that has come in: one lemma for each,
to be cited instead of the definitions. -/

namespace Sys2Proof

open Sys2Proof.Machine

/-! ### What each command answers while no device reset lasts -/

variable {e : Elapsed} {rest : List Byte} {order : FrameOrder} {s : State}

theorem onEvent_of_held (f : State → State) (h : s.held = true) : onEvent e f s = .next s := by
  simp [onEvent, h]

theorem onEvent_of_running (f : State → State) (h : s.held = false) : onEvent e f s = .next (f (s.elapse e)) := by
  simp [onEvent, h]

theorem exec_configReadComplete (h : s.held = false) :
    exec (.configReadComplete e rest) s = .next ((s.elapse e).imageBytesTaken rest) :=
  onEvent_of_running _ h

theorem exec_ringLossOfSignal (h : s.held = false) :
    exec (.ringLossOfSignal e) s = .next ((s.elapse e).ringLoss) :=
  onEvent_of_running _ h

theorem exec_ringSignalPresent (h : s.held = false) :
    exec (.ringSignalPresent e) s = .next ((s.elapse e).ringSignal) :=
  onEvent_of_running _ h

theorem exec_ringStartMarker (h : s.held = false) :
    exec (.ringStartMarker e) s = .next ((s.elapse e).ringMarker) :=
  onEvent_of_running _ h

theorem exec_ringFill (h : s.held = false) :
    exec (.ringFill e) s = .next ((s.elapse e).ringTruncate) :=
  onEvent_of_running _ h

theorem exec_ringHeaderTaken (h : s.held = false) :
    exec (.ringHeaderTaken e rest) s = .next ((s.elapse e).ringEighthByte rest) :=
  onEvent_of_running _ h

theorem exec_ringPacketComplete (h : s.held = false) :
    exec (.ringPacketComplete e rest order) s = .next ((s.elapse e).ringLastByte rest order) :=
  onEvent_of_running _ h

theorem exec_ringTransmissionComplete (h : s.held = false) :
    exec (.ringTransmissionComplete e) s = .next ((s.elapse e).sendDone) :=
  onEvent_of_running _ h

theorem exec_entryAged (h : s.held = false) :
    exec (.entryAged e order) s = .next ((s.elapse e).agingDeparture order) :=
  onEvent_of_running _ h

theorem exec_frameStart (h : s.held = false) :
    exec (.frameStart e order) s = .next ((s.elapse e).nextFrameStart order) :=
  onEvent_of_running _ h

theorem exec_listeningCountEnd (h : s.held = false) :
    exec (.listeningCountEnd e order) s = .next ((s.elapse e).frameStartIf (s.elapse e).listeningEnds order) :=
  onEvent_of_running _ h

theorem exec_faultHoldExpiry (h : s.held = false) :
    exec (.faultHoldExpiry e order) s = .next ((s.elapse e).frameStartIf (s.elapse e).holdEnds order) :=
  onEvent_of_running _ h

theorem exec_outstandingExpiry (h : s.held = false) :
    exec (.outstandingExpiry e order) s = .next ((s.elapse e).frameStartIf (s.elapse e).outstandingEnds order) :=
  onEvent_of_running _ h

theorem exec_holdoverEntry (h : s.held = false) :
    exec (.holdoverEntry e order) s = .next ((s.elapse e).frameStartIf (s.elapse e).lockEnds order) :=
  onEvent_of_running _ h

theorem exec_holdoverExpiry (h : s.held = false) :
    exec (.holdoverExpiry e order) s = .next ((s.elapse e).frameStartIf (s.elapse e).holdoverEnds order) :=
  onEvent_of_running _ h

theorem exec_lineStart (h : s.held = false) :
    exec (.lineStart e) s = .next ((s.elapse e).nextLine) :=
  onEvent_of_running _ h

theorem exec_linkLossOfSignal (h : s.held = false) :
    exec (.linkLossOfSignal e) s = .next ((s.elapse e).linkLoss) :=
  if_neg (by simp [h])

theorem exec_linkSignalPresent (h : s.held = false) :
    exec (.linkSignalPresent e) s = .next ((s.elapse e).linkSignal) :=
  if_neg (by simp [h])

theorem exec_linkStartMarker (h : s.held = false) :
    exec (.linkStartMarker e) s = .next ((s.elapse e).linkMarker) :=
  onEvent_of_running _ h

theorem exec_linkFill (h : s.held = false) :
    exec (.linkFill e) s = .next ((s.elapse e).linkCut) :=
  onEvent_of_running _ h

theorem exec_linkHdrBad (h : s.held = false) :
    exec (.linkHdrBad e rest) s = .next ((s.elapse e).linkEighthByte rest) :=
  onEvent_of_running _ h

theorem exec_linkLengthBad (h : s.held = false) :
    exec (.linkLengthBad e rest) s = .next ((s.elapse e).linkEighthByte rest) :=
  onEvent_of_running _ h

theorem exec_unknownKind (h : s.held = false) :
    exec (.unknownKind e rest) s = .next ((s.elapse e).linkEighthByte rest) :=
  onEvent_of_running _ h

theorem exec_filler (h : s.held = false) :
    exec (.filler e rest) s = .next ((s.elapse e).linkEighthByte rest) :=
  onEvent_of_running _ h

theorem exec_frameBegin (h : s.held = false) :
    exec (.frameBegin e rest) s = .next ((s.elapse e).linkEighthByte rest) :=
  onEvent_of_running _ h

theorem exec_line (h : s.held = false) :
    exec (.line e rest) s = .next ((s.elapse e).lineLastByte rest) :=
  onEvent_of_running _ h

theorem exec_frameEnd (h : s.held = false) :
    exec (.frameEnd e rest) s = .next ((s.elapse e).linkEighthByte rest) :=
  onEvent_of_running _ h

theorem exec_poll (h : s.held = false) :
    exec (.poll e rest) s = .next ((s.elapse e).linkEighthByte rest) :=
  onEvent_of_running _ h

theorem exec_reportComplete (h : s.held = false) :
    exec (.reportComplete e) s = .next ((s.elapse e).reportDone) :=
  onEvent_of_running _ h

theorem exec_clear (h : s.held = false) :
    exec (.clear e rest) s = .next ((s.elapse e).linkEighthByte rest) :=
  onEvent_of_running _ h

theorem exec_linkReset (h : s.held = false) :
    exec (.linkReset e rest) s = .next ((s.elapse e).linkEighthByte rest) :=
  onEvent_of_running _ h

theorem exec_withdraw (h : s.held = false) :
    exec (.withdraw e rest) s = .next ((s.elapse e).linkEighthByte rest) :=
  onEvent_of_running _ h

theorem exec_rejoin (h : s.held = false) :
    exec (.rejoin e rest) s = .next ((s.elapse e).linkEighthByte rest) :=
  onEvent_of_running _ h

theorem exec_linkHeaderTaken (h : s.held = false) :
    exec (.linkHeaderTaken e rest) s = .next ((s.elapse e).linkEighthByte rest) :=
  onEvent_of_running _ h

theorem exec_skipLastByte (h : s.held = false) :
    exec (.skipLastByte e) s = .next ((s.elapse e).skipLast) :=
  onEvent_of_running _ h

/-! ### Headers -/

/-- A source link header that has come in is examined as it was corrected (R135). -/
theorem linkEighthByte_of_headerIn {fixed : Bool} {h : LinkHeader} (hh : LinkHeaderIn e rest fixed h s) :
    (s.elapse e).linkEighthByte rest = (linkBase e fixed s).linkHeaderGood h := by
  obtain ⟨-, p, b, hp, hn, hl, hc, rfl⟩ := hh
  cases fixed
  · simp_all [State.linkEighthByte, State.linkHeaderCheck, linkBase]
  · simp_all [State.linkEighthByte, State.linkHeaderCheck, linkBase]
    rfl

/-- A ring header that has come in is examined as it was corrected (R99). -/
theorem ringEighthByte_of_headerIn {fixed : Bool} {h : RingHeader} {arrival : Tick}
    (hh : RingHeaderIn e rest fixed h arrival s) :
    (s.elapse e).ringEighthByte rest = (ringBase e fixed s).ringHeaderGood h arrival := by
  obtain ⟨-, p, b, hp, hn, hl, hc, rfl, rfl⟩ := hh
  cases fixed
  · simp_all [State.ringEighthByte, State.ringHeaderCheck, ringBase]
  · simp_all [State.ringEighthByte, State.ringHeaderCheck, ringBase]
    rfl

/-- RING OUT takes a forwarded packet as R119 and R120 give. -/
theorem departForwarded_eq (p : RingPacket) (queue : List RingPacket) :
    s.departForwarded p queue = { s with ringOut := departing s.now s.segmentDelay p queue s.ringOut } := by
  have sat : p.header.delay.toNat = 65535 ↔ p.header.delay = 65535#16 :=
    ⟨fun h => BitVec.eq_of_toNat_eq (by simpa using h), fun h => by simp [h]⟩
  have sum : p.header.delay.toNat + (s.now - p.arrival).toNat + s.segmentDelay = p.delaySum s.now s.segmentDelay := rfl
  simp only [departing, sum, State.departForwarded, RingPacket.departing, RingTransmitter.countCapped, ringBeat,
    Config.saturatedDelay, ringBytes, cappedDelay, ne_eq, sat]
  generalize p.delaySum s.now s.segmentDelay = n
  by_cases hb : p.header.kind = 1#8 <;> by_cases hd : p.header.delay = 65535#16 <;> by_cases hs : 65535 ≤ n <;>
    simp [hb, hd, hs, State.setRingOut]

/-- A completed packet is passed on, counted by TAINT and CRC, and consumed if it is good (R105, R107, R108). -/
theorem ringComplete_eq {h : RingHeader} {good : Bool} {body : List Byte} {arrival : Tick} :
    s.ringComplete h good body arrival order =
      if !h.taint && good then
        let taken := (passed h good body arrival s).consume h (body.take h.length.toNat) arrival
        taken.1.immediateFrameStart taken.2 order
      else passed h good body arrival s := by
  have hr : (s.ringIn.leave .hunt).countCompletion h.taint good = (passed h good body arrival s).ringIn := by
    cases ht : h.taint <;> cases good <;> simp [passed, RingReceiver.countCompletion, RingReceiver.leave, ht]
  have hq : ((s.setRingIn ((s.ringIn.leave .hunt).countCompletion h.taint good)).setRingOut
      { s.ringOut with queue := s.ringOut.queue ++ [completedPacket h good body arrival] }).chooseOut =
      passed h good body arrival s := by
    rw [hr]
    cases hs : s.ringOut.sending with
    | some x => simp [State.chooseOut, passed, completedPacket, State.setRingIn, State.setRingOut, hs]
    | none =>
      cases hl : s.ringOut.queue ++ [completedPacket h good body arrival] with
      | nil => simp at hl
      | cons p queue =>
        simp only [State.chooseOut, State.setRingOut, State.setRingIn, hs, departForwarded_eq]
        unfold passed
        simp only [completedPacket] at hl
        simp only [hs, hl]
        rfl
  unfold State.ringComplete
  simp only [State.setRingIn_ringOut, hq]

/-- The last byte of a ring packet in reception (R105). -/
theorem ringLastByte_of_bodyIn {h : RingHeader} {body : List Byte} {arrival : Tick}
    (hb : RingBodyIn e rest h body arrival s) :
    (s.elapse e).ringLastByte rest order =
      (s.elapse e).ringComplete h (crcGood h.length.toNat body) body arrival order := by
  obtain ⟨-, p, hp, hh, rfl, hl, rfl⟩ := hb
  simp [State.ringLastByte, hp, hh, hl]

/-- While RING OUT is SENDING no choice is made (R118). -/
theorem chooseOut_of_sending {x : Sending} (h : s.ringOut.sending = some x) : s.chooseOut = s := by
  simp [State.chooseOut, h]

/-- While a transfer is in progress no grant is made (R162). -/
theorem grant_of_busy {x : Transfer} (h : s.transfer = some x) : s.grant = s := by
  simp [State.grant, h]

/-- With nothing waiting an idle controller makes no grant (R162). -/
theorem grant_of_empty (h : s.scan.records = []) (q : s.ingest.queue = []) : s.grant = s := by
  unfold State.grant
  split
  · rfl
  · simp [h, q]

/-- What a grant does (R162). -/
theorem granted_grant : Granted s.scan.slot s.transfer s.scan.records s.ingest.queue s.grant := by
  refine ⟨fun h => ?_, fun before after r i h hr hb hi hs => ?_, fun h k => ?_⟩
  · cases ht : s.transfer with
    | none => exact absurd ht h
    | some x => simp [State.grant, ht]
  · have first : s.scan.records.find? (fun r => !r.inProgress) = some r := by
      have : before.find? (fun r => !r.inProgress) = none := by simpa using hb
      simp [hr, List.find?_append, this, hi]
    have start : startFirst s.scan.records = before ++ { r with inProgress := true } :: after := by
      rw [hr]
      clear hr first
      induction before with
      | nil => simp [startFirst, hi]
      | cons x xs ih => simp [startFirst, hb x (by simp), ih (fun y hy => hb y (by simp [hy]))]
    simp [State.grant, h, first, hs, start]
  · have none_waits : s.grant = (match s.ingest.queue with
      | [] => s
      | w :: ws => (s.setIngest { s.ingest with queue := ws }).setTransfer (some (.write w))) := by
      unfold State.grant
      rw [h]
      rcases k with k | k
      · rw [k]
        cases s.scan.records.find? (fun r => !r.inProgress) <;> rfl
      · have : s.scan.records.find? (fun r => !r.inProgress) = none := by simpa using k
        cases s.ingest.queue <;> simp only [this]
    rw [none_waits]
    cases hq : s.ingest.queue <;> simp [h, hq]

/-! ### Packets of the source link -/

/-- The last byte of a LINE in reception (R140). -/
theorem lineLastByte_of_lineIn {h : LinkHeader} {body : List Byte} (hb : LineIn e rest h body s) :
    (s.elapse e).lineLastByte rest = (s.elapse e).lineTaken h body := by
  obtain ⟨-, hs, p, hp, hh, rfl, hl⟩ := hb
  simp [State.lineLastByte, hs, hp, hh, hl]

/-- A header of a kind without payload, and with Length 0, completes its packet (R138, R141). -/
theorem linkFate_complete {h : LinkHeader} {k : LinkKind} (hk : LinkKind.ofCode h.kind = some k) (hl : h.length = 0)
    (line : k ≠ .line) (filler : k ≠ .filler) : linkFate h = .complete k := by
  cases k <;> simp_all [linkFate, Config.maxLinkLength]

/-- The end of a frame in progress (R146, R157). -/
theorem endInProgress_eq (h : s.ingest.state = .inFrame → s.ingest.slot.isSome = true) :
    s.endInProgress = endedEarly s := by
  unfold State.endInProgress endedEarly
  by_cases hi : s.ingest.state = .inFrame
  · cases hs : s.ingest.slot with
    | none => simp [hs] at h; exact absurd hi h
    | some i => simp only [hi, if_true, State.abandonCurrent, hs]; rfl
  · simp only [hi, if_false]
    cases hh : s.ingest.state <;> simp_all

/-- What makes a FRAME_BEGIN stale (R147). -/
theorem staleFrame_iff {n : FrameNo} :
    s.staleFrame n = true ↔
      (∃ f, s.presentation.shown = some f ∧ laterThan n f = false) ∨
      (∃ r ∈ s.slots.table, (r.state = .filling ∨ r.state = .closing ∨ r.state = .complete) ∧
        ∃ f, r.frame = some f ∧ laterThan n f = false) := by
  simp only [State.staleFrame, Bool.or_eq_true, SlotManager.heldNotEarlier, List.any_eq_true]
  refine or_congr ?_ (exists_congr fun r => and_congr_right fun _ => ?_)
  · cases s.presentation.shown <;> simp
  · cases r.frame <;> simp [or_assoc]

/-! ### CLEAR (R178) -/

/-- What a CLEAR does to the blocks, group by group. -/
theorem takeClear_eq (a : BitVec 16) : s.takeClear a =
    { s with
      ringIn := if a.getLsbD 0 then s.ringIn.cleared else s.ringIn,
      ringOut := if a.getLsbD 0 then s.ringOut.cleared else s.ringOut,
      roster := if a.getLsbD 0 then s.roster.cleared else s.roster,
      link := if a.getLsbD 1 then s.link.cleared else s.link,
      report := if a.getLsbD 1 then s.report.cleared else s.report,
      ingest := if a.getLsbD 2 then s.ingest.cleared else s.ingest,
      slots :=
        { s.slots with
          framesCompleted := if a.getLsbD 2 then 0 else s.slots.framesCompleted,
          evicted := if a.getLsbD 2 then 0 else s.slots.evicted,
          skipped := if a.getLsbD 3 then 0 else s.slots.skipped },
      presentation := if a.getLsbD 3 then s.presentation.cleared else s.presentation,
      role := if a.getLsbD 4 then s.role.cleared else s.role,
      timing := if a.getLsbD 4 then s.timing.cleared else s.timing,
      scan := if a.getLsbD 5 then s.scan.cleared else s.scan } := by
  have ring (x : Bool) (s : State) : s.clearIf x State.clearRing =
      { s with
        ringIn := if x then s.ringIn.cleared else s.ringIn, ringOut := if x then s.ringOut.cleared else s.ringOut,
        roster := if x then s.roster.cleared else s.roster } := by cases x <;> rfl
  have link (x : Bool) (s : State) : s.clearIf x State.clearLink =
      { s with
        link := if x then s.link.cleared else s.link,
        report := if x then s.report.cleared else s.report } := by cases x <;> rfl
  have ingest (x : Bool) (s : State) : s.clearIf x State.clearIngest =
      { s with
        ingest := if x then s.ingest.cleared else s.ingest,
        slots :=
          { s.slots with
            framesCompleted := if x then 0 else s.slots.framesCompleted,
            evicted := if x then 0 else s.slots.evicted } } := by cases x <;> rfl
  have present (x : Bool) (s : State) : s.clearIf x State.clearPresent =
      { s with
        presentation := if x then s.presentation.cleared else s.presentation,
        slots := { s.slots with skipped := if x then 0 else s.slots.skipped } } := by cases x <;> rfl
  have timing (x : Bool) (s : State) : s.clearIf x State.clearTiming =
      { s with
        role := if x then s.role.cleared else s.role,
        timing := if x then s.timing.cleared else s.timing } := by cases x <;> rfl
  have scan (x : Bool) (s : State) : s.clearIf x State.clearScan =
      { s with scan := if x then s.scan.cleared else s.scan } := by cases x <;> rfl
  simp only [State.takeClear, ring, link, ingest, present, timing, scan]

/-! ### The departure from ORIGIN (R67, R90, R116) -/

theorem departOrigin_eq (r : Role) : s.departOrigin r = departed r s := by
  have both : BitVec.twoPow 16 2 ||| BitVec.twoPow 16 1 = 0x0006#16 := by decide
  have role : BitVec.twoPow 16 1 = 0x0002#16 := by decide
  unfold State.departOrigin State.timingDepart State.takeBackBeat State.setLock departed
  by_cases hl : s.timing.lock = .holdover <;> cases hb : s.ringOut.beat <;>
    simp [hl, hb, State.setRole, State.setTiming, State.setRingOut, State.raise, State.setNotices, Notice.bit, ← both,
      ← role, BitVec.or_assoc] <;> rw [← hb]

/-! ### Own packets (R121 to R126) -/

theorem bumpBy_one (x : Counter) : bumpBy 1 x = bump x :=
  BitVec.eq_of_toNat_eq (by rw [bumpBy_toNat, bump_toNat])

/-- What the own entry says is what its STANDING says (R44, R47). -/
theorem ownStanding_eq {c : Settings} : s.ownStanding c = ownSaid c s := rfl

theorem sinceFrameStart_eq : s.sinceFrameStart = sinceStart s := rfl

/-- RING OUT takes an own packet as R121 to R126 give. -/
theorem departOwn_eq {c : Settings} {kind : OwnKind} {payload : List Byte} {delay : BitVec 16} (h : payload ≠ []) :
    s.departOwn c kind payload delay = ownSent c kind delay payload s := by
  have notice : BitVec.twoPow 16 3 = 0x0008#16 := by decide
  unfold State.departOwn State.joinOutstanding State.expireEntries State.setRing ownSent
  by_cases full : 8 ≤ s.ringOut.outstanding.length <;> by_cases ring : s.ringOut.ring = .broken <;>
    simp [full, ring, h, State.setRingOut, State.raise, State.setNotices, Notice.bit, notice, bumpBy_one, ringBytes,
      protectPayload, Config.outstandingLimit, Config.hopsAtSender, ownHeader, OwnKind.code] <;>
    cases kind <;> rfl

/-- RING OUT's choice with no packet in the forward queue, place by place (R118). -/
theorem chooseOut_leave {c : Settings} (hs : s.ringOut.sending = none) (hq : s.ringOut.queue = [])
    (hc : s.loader.settled = some c) (hl : s.ringOut.leave = true) :
    s.chooseOut = ownSent c .leave 0 [0x01] { s with ringOut := { s.ringOut with leave := false } } := by
  simp only [State.chooseOut, hs, hq, hc, hl, if_true, State.departLeave]
  exact departOwn_eq (by decide)

theorem chooseOut_beat {c : Settings} {beat : Beat} (hs : s.ringOut.sending = none) (hq : s.ringOut.queue = [])
    (hc : s.loader.settled = some c) (hl : s.ringOut.leave = false) (hb : s.ringOut.beat = some beat) :
    s.chooseOut = ownSent c .beat (BitVec.ofNat 16 (min 65535 (sinceStart s))) beat.payload
      { s with
        ringOut :=
          { s.ringOut with
            beat := none,
            delayCapped :=
              if 65535 ≤ sinceStart s then bump s.ringOut.delayCapped else s.ringOut.delayCapped } } := by
  have departs : s.chooseOut = s.departBeat c beat := by simp [State.chooseOut, hs, hq, hc, hl, hb]
  rw [departs, State.departBeat, departOwn_eq (by simp [Beat.payload, bytes16]), RingTransmitter.countCapped,
    sinceFrameStart_eq]
  by_cases capped : 65535 ≤ sinceStart s <;> simp only [capped, if_true, if_false, Config.saturatedDelay] <;> rfl

theorem chooseOut_standing {c : Settings} (hs : s.ringOut.sending = none) (hq : s.ringOut.queue = [])
    (hc : s.loader.settled = some c) (hl : s.ringOut.leave = false) (hb : s.ringOut.beat = none)
    (hst : s.ringOut.standing = true) :
    s.chooseOut =
      (ownSent c .standing 0 (ownSaid c s).payload
        { s with ringOut := { s.ringOut with standing := false } }).ownStandingDeparts s.ringOut.sequence := by
  simp only [State.chooseOut, hs, hq, hc, hl, hb, hst, Bool.false_eq_true, if_false, if_true, State.departStanding]
  rw [departOwn_eq (by simp [Standing.payload, bytes16])]
  rfl

theorem chooseOut_idle (hs : s.ringOut.sending = none) (hq : s.ringOut.queue = []) (hl : s.ringOut.leave = false)
    (hb : s.ringOut.beat = none) (hst : s.ringOut.standing = false) : s.chooseOut = s := by
  simp only [State.chooseOut, hs, hq, hl, hb, hst, Bool.false_eq_true, if_false]
  cases s.loader.settled <;> rfl

/-- A LEAVE that fills its place departs at once from an IDLE RING OUT with no packet waiting (R116, R118). -/
theorem offerLeave_eq {c : Settings} (h : s.loader.settled = some c) :
    s.offerLeave = leaveOffered c { s with ringOut := { s.ringOut with leave := true } } := by
  unfold State.offerLeave leaveOffered
  cases hs : s.ringOut.sending with
  | some x => exact chooseOut_of_sending (s := s.setRingOut _) hs
  | none =>
    cases hq : s.ringOut.queue with
    | cons p queue => simp only [State.chooseOut, State.setRingOut, hs, hq, departForwarded_eq]
    | nil => exact chooseOut_leave (s := s.setRingOut _) hs hq h rfl

/-! ### WITHDRAW (R71, R180) -/

/-- The Role Controller at entry to WITHDRAWN (R71). -/
theorem enterStandby_of_origin (h : s.role.role = .origin) :
    s.enterStandby =
      { departed .standby s with
        role := { (departed .standby s).role with current := none, listening := 0 } } := by
  unfold State.enterStandby
  rw [if_pos h, departOrigin_eq]
  rfl

theorem enterStandby_of_other (h : s.role.role ≠ .origin) :
    s.enterStandby =
      { s with role := { s.role with role := .standby, listening := 0 }, notices := s.notices ||| 0x0002#16 } := by
  unfold State.enterStandby
  rw [if_neg h]
  rfl

/-- What WITHDRAW does while RUNNING, `r` being the state once the Role Controller has acted (R180). -/
theorem enterWithdrawn_eq {c : Settings} {r : State}
    (hr : ({ s with loader := { s.loader with station := .withdrawn } } : State).enterStandby = r)
    (hl : r.loader.settled = some c) :
    s.enterWithdrawn = leaveOffered c
      { r with
        presentation := { r.presentation with decision := none }, roster := { r.roster with ownPresent := false },
        ringOut :=
          { r.ringOut with
            leave := true, standing := false,
            takenBack := if r.ringOut.standing then bump r.ringOut.takenBack else r.ringOut.takenBack } } := by
  have back (x : State) : x.takeBackStanding =
      { x with
        ringOut :=
          { x.ringOut with
            standing := false,
            takenBack := if x.ringOut.standing then bump x.ringOut.takenBack else x.ringOut.takenBack } } := by
    unfold State.takeBackStanding
    cases hs : x.ringOut.standing
    · simp only [Bool.false_eq_true, if_false]
      rw [← hs]
    · rfl
  subst hr
  simp only [State.enterWithdrawn]
  rw [back, offerLeave_eq (c := c) (by exact hl)]
  rfl

/-! ### Good packets of the own group -/

/-- A good packet of the own group is consumed (R108, R109). -/
theorem ringLastByte_of_ownGroup {kind : Byte} {h : RingHeader} {body : List Byte} {arrival : Tick} {c : Settings}
    (hb : OwnGroupIn e rest kind h body arrival c s) :
    (s.elapse e).ringLastByte rest order =
      (let taken := (passed h true body arrival (s.elapse e)).consume h (body.take h.length.toNat) arrival
      taken.1.immediateFrameStart taken.2 order) := by
  obtain ⟨hb, hg, ht, -, -, -⟩ := hb
  rw [ringLastByte_of_bodyIn hb, ringComplete_eq]
  simp [hg, ht]

/-! ### Symbols (R190) -/

/-- Ten bits in the order in which they are sent are taken by their prefix and their eight bits. -/
@[simp] theorem receiveSerial_serialBits (code : BitVec 2) (bits : Byte) :
    receiveSerial (serialBits code bits) = takeSymbol code bits := by
  have hc : ∀ x : BitVec 2, BitVec.ofBool (x.getLsbD 1) ++ BitVec.ofBool (x.getLsbD 0) = x := by decide
  have hb : ∀ x : Byte, BitVec.ofBool (x.getLsbD 7) ++ BitVec.ofBool (x.getLsbD 6) ++ BitVec.ofBool (x.getLsbD 5) ++
      BitVec.ofBool (x.getLsbD 4) ++ BitVec.ofBool (x.getLsbD 3) ++ BitVec.ofBool (x.getLsbD 2) ++
      BitVec.ofBool (x.getLsbD 1) ++ BitVec.ofBool (x.getLsbD 0) = x := by decide +kernel
  unfold receiveSerial
  exact congr (congrArg takeSymbol (hc code)) (hb bits)

/-! ### The own address (log 27) -/

/-- A STANDING that names the own address leaves everything as it is. -/
theorem takeStanding_own {c : Settings} {sequence : Byte} {x : Standing} :
    s.takeStanding c c.address sequence x = s := by
  simp [State.takeStanding]

/-! ### The panel port (R170) -/

/-- In an active line pixel `j` of the output line stands on the port, with data enable high, for the `c.pixelTime` W-ths
of a tick of its own: every one of the W pixels is sent. -/
theorem panelAt_pixel {c : Settings} {out : OutputLine} {k j i : Nat} (hk : k < c.h) (hj : j < c.w)
    (hi : i < c.pixelTime) :
    (panelAt c out (c.vb + k) (c.blankTicks * c.w + (j * c.pixelTime + i))).dataEnable = true ∧
      (out.sent c)[j]? = some (panelAt c out (c.vb + k) (c.blankTicks * c.w + (j * c.pixelTime + i))).data := by
  have width : c.blankTicks + c.pixelTime = c.lineTicks := by
    unfold Settings.pixelTime at hi ⊢
    omega
  have inside : j * c.pixelTime + i < c.w * c.pixelTime := by
    calc j * c.pixelTime + i < j * c.pixelTime + c.pixelTime := by omega
      _ = (j + 1) * c.pixelTime := by ring
      _ ≤ c.w * c.pixelTime := Nat.mul_le_mul_right _ hj
  have whole : c.blankTicks * c.w + (j * c.pixelTime + i) < c.lineTicks * c.w := by
    calc c.blankTicks * c.w + (j * c.pixelTime + i) < c.blankTicks * c.w + c.w * c.pixelTime := by omega
      _ = c.lineTicks * c.w := by rw [← width]; ring
  have index : (j * c.pixelTime + i) / c.pixelTime = j := by
    rw [Nat.mul_comm, Nat.mul_add_div (by omega), Nat.div_eq_of_lt hi, Nat.add_zero]
  simp [panelAt, OutputLine.sent, hk, hj, whole, index]

/-! ### What passing time leaves -/

@[simp] theorem collect_station (l : Loader) (bs : List Byte) : (l.collect bs).station = l.station := by
  unfold Loader.collect
  split <;> rfl

@[simp] theorem collect_settled (l : Loader) (bs : List Byte) : (l.collect bs).settled = l.settled := by
  unfold Loader.collect
  split <;> rfl

@[simp] theorem passTicks_loader (d : Tick) : (s.passTicks d).loader = s.loader := by
  unfold State.passTicks
  split
  · rfl
  · split <;> rfl

/-- Passing time reaches the receivers and the Loader by their own collecting alone. -/
theorem elapse_blocks : (s.elapse e).ringIn = s.ringIn.collect e.ringIn ∧
    (s.elapse e).link = s.link.collect e.linkIn ∧ (s.elapse e).loader = s.loader.collect e.imageIn := by
  have ticks : (s.passTicks e.ticks).ringIn = s.ringIn ∧ (s.passTicks e.ticks).link = s.link := by
    unfold State.passTicks
    split
    · exact ⟨rfl, rfl⟩
    · split <;> exact ⟨rfl, rfl⟩
  simp [State.elapse, ticks]

@[simp] theorem elapse_station : (s.elapse e).loader.station = s.loader.station := by
  simp [State.elapse]

@[simp] theorem elapse_settled : (s.elapse e).loader.settled = s.loader.settled := by
  simp [State.elapse]

@[simp] theorem elapse_active : (s.elapse e).active = s.active := by
  simp [State.active]

/-! ### The order of the blocks at a frame start -/

/-- What the order taken at a frame start keeps, whatever order the command carries (log 7): every part comes once, and the
parts that the rules order stand in their order (R26, R61, R167). -/
theorem FrameOrder.taken_spec (o : FrameOrder) :
    o.taken.Perm FrameOrder.canonical ∧ o.taken.Nodup ∧ FramePart.before o.taken .role .compose = true ∧
      FramePart.before o.taken .present .compose = true ∧ FramePart.before o.taken .role .offer = true ∧
      FramePart.before o.taken .settle .present = true ∧ FramePart.before o.taken .settle .firstLine = true := by
  unfold FrameOrder.taken
  split
  · next h =>
    simp only [FrameOrder.valid, Bool.and_eq_true, beq_iff_eq, List.all_eq_true] at h
    obtain ⟨⟨⟨⟨⟨⟨size, parts⟩, h1⟩, h2⟩, h3⟩, h4⟩, h5⟩ := h
    have nodup : FrameOrder.canonical.Nodup := by decide
    have perm : FrameOrder.canonical.Perm o.parts :=
      (List.subperm_of_subset nodup fun p hp => by simpa using parts p hp).perm_of_length_le
        (by rw [size]; decide)
    exact ⟨perm.symm, perm.nodup_iff.1 nodup, h1, h2, h3, h4, h5⟩
  · exact ⟨.refl _, by decide, by decide, by decide, by decide, by decide, by decide⟩

end Sys2Proof
end

