-- ==== Sys2Proof/Laws/Reports.lean ====
section
/-! SUPPORT. The report bodies of the model are those that the statements write out (13.6). -/

namespace Sys2Proof

open Sys2Proof.Machine

variable {s : State}

/-! ### Numbers -/

theorem numberBytes_one (n : Nat) : numberBytes 1 n = [byteOf n] := by simp [numberBytes, byteOf]

theorem numberBytes_byte (b : Byte) : numberBytes 1 b.toNat = [b] := by simp [numberBytes]

theorem bytes16_eq (w : BitVec 16) : bytes16 w = numberBytes 2 w.toNat := by
  simp [numberBytes, bytes16, List.range_succ, BitVec.extractLsb', Nat.shiftRight_eq_div_pow]

theorem bytes24_eq (w : BitVec 24) : bytes24 w = numberBytes 3 w.toNat := by
  simp [numberBytes, bytes24, List.range_succ, BitVec.extractLsb', Nat.shiftRight_eq_div_pow]

theorem bytes32_eq (w : BitVec 32) : bytes32 w = numberBytes 4 w.toNat := by
  simp [numberBytes, bytes32, List.range_succ, BitVec.extractLsb', Nat.shiftRight_eq_div_pow]

theorem bytes16_fun : bytes16 = fun w => numberBytes 2 w.toNat := funext bytes16_eq

/-- Only the bytes of a number that are given matter. -/
theorem numberBytes_mod (n v : Nat) : numberBytes n (v % 256 ^ n) = numberBytes n v := by
  refine List.map_congr_left fun i hi => BitVec.eq_of_toNat_eq ?_
  have split : 256 ^ n = 256 ^ (n - 1 - i) * (256 * 256 ^ i) := by
    have : n = (n - 1 - i) + (1 + i) := by
      have := List.mem_range.1 hi
      omega
    conv_lhs => rw [this, pow_add, pow_add, pow_one]
  simp only [BitVec.toNat_ofNat, split, Nat.mod_mul_right_div_self, Nat.mod_mul_right_mod]

theorem lineItem_eq (n : Nat) : lineItem n = numberBytes 2 n := by
  rw [lineItem, bytes16_eq, BitVec.toNat_ofNat]
  exact numberBytes_mod 2 n

theorem bytes24_ofNat (n : Nat) : bytes24 (BitVec.ofNat 24 n) = numberBytes 3 n := by
  rw [bytes24_eq, BitVec.toNat_ofNat]
  exact numberBytes_mod 3 n

theorem bytes32_ofInt (x : Int) : bytes32 (BitVec.ofInt 32 x) = numberBytes 4 (x % 4294967296).toNat := by
  rw [bytes32_eq, BitVec.toNat_ofInt]
  rfl

theorem optionalItem_eq (n : Nat) (x : Option (List Byte)) : optionalItem n x = optionalBytes n x := by
  cases x <;> rfl

theorem counterFields_eq (cs : List Counter) : counterFields cs = counts cs := by
  simp [counterFields, counts, bytes16_eq]

/-! ### The kinds without entries -/

theorem imageBytes_eq (c : Settings) : c.imageBytes = c.image.take 22 := by
  have length : c.imageBytes.length = 22 := by simp [Settings.imageBytes, bytes16, bytes24]
  rw [Settings.image, List.take_append_of_le_length (by omega), List.take_of_length_le (by omega)]

theorem cause_eq (x : FaultCause) : [[x.code], [byteOf x.fieldRow]] = causeBytes x := by
  cases x with
  | fieldRange f => cases f <;> rfl
  | _ => rfl

theorem identFields_eq : s.identFields = identItems s := by
  have code : [s.loader.station.code] =
      numberBytes 1 (position [.configuring, .configFault, .running, .withdrawn] s.loader.station) := by
    cases s.loader.station <;> rfl
  have first : [bytes16 Config.identification, [Config.revision], [s.loader.station.code]] =
      [numberBytes 2 0x0641, [1], [s.loader.station.code]] := rfl
  unfold State.identFields identItems
  rw [first, code]
  cases s.loader.station <;> cases s.loader.settled <;> cases s.loader.cause <;>
    simp [imageBytes_eq, bytes24_ofNat, Settings.period, ← cause_eq]

theorem linkFields_eq : s.linkFields = linkItems s := by
  have code : [s.link.state.code] = numberBytes 1 (position [.down, .hunt, .header, .payload, .skip] s.link.state) := by
    cases s.link.state <;> rfl
  simp only [State.linkFields, linkItems, code, counterFields_eq, LinkReceiver.counters, numberBytes_one]

theorem placesHeld_eq : s.placesHeld = (writesHeld s).length := by
  unfold State.placesHeld writesHeld
  cases s.transfer with
  | none => simp
  | some x =>
    cases x with
    | write w => simp
    | fetch i line => simp

theorem ingestFields_eq : s.ingestFields = ingestItems s := by
  have code : [s.ingest.state.code] = numberBytes 1 (position [.noFrame, .inFrame, .discarding] s.ingest.state) := by
    cases s.ingest.state <;> rfl
  have transfer (x : Transfer) : x.item = transferBytes x := by
    cases x <;> simp [Transfer.item, transferBytes, lineItem_eq, numberBytes_one]
  unfold State.ingestFields ingestItems
  simp only [code, funext transfer, counterFields_eq, optionalItem_eq, placesHeld_eq, lineItem_eq, ← numberBytes_one,
    Assembler.counters, List.cons_append, List.nil_append, bytes16_fun]

/-! ### SLOTS and ROSTER -/

theorem slotItem_eq (i : Nat) (r : Slot) : r.item i = slotItem i r := by
  have flags : [(0#3 : BitVec 3) ++ BitVec.ofBool r.frame.isSome ++ BitVec.ofBool r.damaged ++ r.state.code] =
      numberBytes 1
        (position [.free, .filling, .closing, .complete, .shown, .draining] r.state + 8 * r.damaged.toNat +
          16 * r.frame.isSome.toNat) := by
    cases r.state <;> cases r.damaged <;> cases r.frame.isSome <;> rfl
  have lines : ((0#2 : BitVec 2) ++ BitVec.ofNat 3 r.pending ++ BitVec.ofNat 11 r.written.length).toNat =
      r.written.length % 2048 + 2048 * (r.pending % 8) := by
    simp only [BitVec.toNat_append, BitVec.toNat_ofNat]
    rw [Nat.shiftLeft_eq, ← Nat.shiftLeft_eq, ← Nat.shiftLeft_add_eq_or_of_lt (by omega), Nat.shiftLeft_eq]
    simp
    omega
  simp only [Slot.item, slotItem, bytes16_eq, lines, ← flags, numberBytes_one, List.cons_append, List.nil_append]

theorem slotEntries_eq : s.slotEntries = slotItems s := by
  simp only [State.slotEntries, slotItems, List.mapIdx_eq_zipIdx_map, slotItem_eq]

theorem rosterFixed_eq : s.rosterFixed = rosterItems s := by
  unfold State.rosterFixed rosterItems LastLeave.item
  rw [counterFields_eq]
  cases h : s.roster.lastLeave <;> simp [h, numberBytes_one, addressByte, addressOrNone]

theorem entryItem_eq (x : Entry) : x.item = entryItem x := by
  have first : [(0#1 : BitVec 1) ++ x.said.lock.code ++ x.said.role.code ++ BitVec.ofBool x.said.capable ++
      BitVec.ofBool x.member] =
      numberBytes 1
        (x.member.toNat + 2 * x.said.capable.toNat + 4 * rolePosition x.said.role +
          16 * lockPosition x.said.lock) := by
    cases x.said.lock <;> cases x.said.role <;> cases x.said.capable <;> cases x.member <;> rfl
  have second : [(0#3 : BitVec 3) ++ BitVec.ofBool x.said.shown.isSome ++ BitVec.ofBool x.said.mismatch ++
      BitVec.ofBool x.said.conflict ++ x.said.ring.code] =
      numberBytes 1
        (ringPosition x.said.ring + 4 * x.said.conflict.toNat + 8 * x.said.mismatch.toNat +
          16 * x.said.shown.isSome.toNat) := by
    cases x.said.ring <;> cases x.said.conflict <;> cases x.said.mismatch <;> cases x.said.shown.isSome <;> rfl
  simp only [Entry.item, entryItem, ← first, ← second, bytes16_fun, numberBytes_one, addressByte, List.cons_append,
    List.nil_append, List.append_assoc]

/-- A table in ascending address order takes an entry of an address that it does not hold between the lower and the
higher ones. -/
theorem putEntry_between (x : Entry) (es : List Entry)
    (sorted : es.Pairwise (fun y z => y.address.toNat < z.address.toNat)) (new : ∀ y ∈ es, y.address ≠ x.address) :
    putEntry x es =
      es.filter (fun y => decide (y.address.toNat < x.address.toNat)) ++ [x] ++
        es.filter (fun y => decide (x.address.toNat < y.address.toNat)) := by
  induction es with
  | nil => rfl
  | cons e es ih =>
    have ne : x.address ≠ e.address := fun h => new e (by simp) h.symm
    have ne' : x.address.toNat ≠ e.address.toNat := fun h => ne (BitVec.eq_of_toNat_eq h)
    rw [List.pairwise_cons] at sorted
    unfold putEntry
    by_cases low : x.address.toNat < e.address.toNat
    · have high : es.filter (fun y => decide (x.address.toNat < y.address.toNat)) = es :=
        List.filter_eq_self.2 fun y hy => by simpa using low.trans (sorted.1 y hy)
      have none_low : es.filter (fun y => decide (y.address.toNat < x.address.toNat)) = [] :=
        List.filter_eq_nil_iff.2 fun y hy => by simpa using (low.trans (sorted.1 y hy)).le
      simp [low, high, none_low, Nat.lt_asymm low]
    · have below : e.address.toNat < x.address.toNat := by omega
      simp [low, ne, below, ih sorted.2 fun y hy => new y (by simp [hy])]

theorem rosterEntries_eq (law : RosterLaw s) : s.rosterEntries = entryItems s := by
  obtain ⟨-, own, sorted, -, new, -, -⟩ := law
  unfold State.rosterEntries State.roll entryItems State.allEntries
  simp only [entryItem_eq]
  cases settled : s.loader.settled with
  | none => rfl
  | some c =>
    cases present : s.roster.ownPresent with
    | false => rfl
    | true =>
      have active : s.active = some c := by simp [State.active, own.1 present, settled]
      simp only [if_true]
      rw [putEntry_between _ _ sorted (new c active)]
      rfl

/-! ### TIMING, PRESENT and RING -/

theorem timingFields_eq : s.timingFields = timingItems s := by
  have role : [byteOf s.role.role.code.toNat] = numberBytes 1 (rolePosition s.role.role) := by
    cases s.role.role <;> rfl
  have lock : [byteOf s.timing.lock.code.toNat] = numberBytes 1 (lockPosition s.timing.lock) := by
    cases s.timing.lock <;> rfl
  have current (a : Option Address) : [optionalAddress a] = addressOrNone a := by
    cases a <;> simp [optionalAddress, addressByte, addressOrNone, numberBytes_one]
  have beat (b : LastBeat) : b.item = lastBeatBytes b := by
    simp only [LastBeat.item, lastBeatBytes, addressByte, numberBytes_one, bytes16_fun, optionalItem_eq]
  have estimate (x : Estimate) : x.item = estimateBytes x := by
    have action : [x.action.code] = numberBytes 1 (position [.lock, .trim, .slip, .jump] x.action) := by
      cases x.action <;> rfl
    simp only [Estimate.item, estimateBytes, bytes16_eq, bytes32_ofInt, action]
  unfold State.timingFields timingItems
  rw [role, lock, current, funext beat, funext estimate]
  simp only [counterFields_eq, optionalItem_eq, bytes16_eq, numberBytes_one]

theorem presentFields_eq : s.presentFields = presentItems s := by
  have decision : Decision.item = fun d => numberBytes 2 d.target.toNat ++ numberBytes 2 d.frame.toNat :=
    funext fun d => by rw [Decision.item, bytes16_eq, bytes16_eq]
  unfold State.presentFields presentItems
  simp only [counterFields_eq, optionalItem_eq, bytes16_fun, decision, numberBytes_one, List.cons_append,
    List.nil_append]

theorem outstanding_eq (o : Outstanding) : o.item = outstandingBytes o := by
  have kind : [o.kind.code] = numberBytes 1 (1 + position [.beat, .standing, .leave] o.kind) := by
    cases o.kind <;> rfl
  rw [outstandingBytes, ← kind, Outstanding.item, bytes16_eq]
  rfl

theorem ringFields_eq : s.ringFields = ringItems s := by
  have state : [s.ringIn.state.code] = numberBytes 1 (position [.down, .hunt, .header, .payload] s.ringIn.state) := by
    cases s.ringIn.state <;> rfl
  have ring : [byteOf s.ringOut.ring.code.toNat] = numberBytes 1 (ringPosition s.ringOut.ring) := by
    cases s.ringOut.ring <;> rfl
  have places : [s.ringOut.placeBits] =
      numberBytes 1 (s.ringOut.leave.toNat + 2 * s.ringOut.beat.isSome.toNat + 4 * s.ringOut.standing.toNat) := by
    unfold RingTransmitter.placeBits
    cases s.ringOut.leave <;> cases s.ringOut.beat.isSome <;> cases s.ringOut.standing <;> rfl
  have out : [s.ringOut.outCode] = numberBytes 1 (outState (s.ringOut.sending.map Sending.source)) := by
    unfold RingTransmitter.outCode
    cases s.ringOut.sending with
    | none => rfl
    | some x => cases h : x.source <;> simp [h, outState, numberBytes_one, byteOf]
  have packet (p : RingRxPacket) : [byteOf p.bytes, flagByte p.reserved] = receptionBytes p := by
    unfold RingRxPacket.bytes receptionBytes
    cases p.header <;> simp [numberBytes_one, flagByte]
  unfold State.ringFields ringItems
  rw [state, ring, places, out, funext packet, funext outstanding_eq]
  simp only [counterFields_eq, optionalItem_eq, numberBytes_one, RingReceiver.counters, RingTransmitter.counters]

/-! ### The whole report -/

/-- What the report of a POLL carries: the items of its kind, cut to the max return (R174 to R176). -/
theorem contentOf_eq (p : Poll) (law : p.kind = .roster → RosterLaw s) : s.contentOf p =
    match p.kind with
    | .ident => cutReport .ident p.max s.notices (identItems s)
    | .link => cutReport .link p.max s.notices (linkItems s)
    | .ingest => cutReport .ingest p.max s.notices (ingestItems s)
    | .slots => pageReport p s.notices (numberBytes 1 s.slots.table.length) (slotItems s)
    | .roster => pageReport p s.notices (rosterItems s).flatten (entryItems s)
    | .timing => cutReport .timing p.max s.notices (timingItems s)
    | .present => cutReport .present p.max s.notices (presentItems s)
    | .ring => cutReport .ring p.max s.notices (ringItems s) := by
  unfold State.contentOf
  cases h : p.kind <;>
    simp only [identFields_eq, linkFields_eq, ingestFields_eq, slotEntries_eq, rosterFixed_eq, timingFields_eq,
      presentFields_eq, ringFields_eq, numberBytes_one]
  rw [rosterEntries_eq (law h)]

end Sys2Proof
end

