-- ==== Sys2Proof/WellFormed.lean ====
section
/-! DEFINITION. Which commands are well formed: the pieces they complete are of the size the manual gives, a whole
source link header is one that its row names, and an order of a frame start is one the manual allows. -/

namespace Sys2Proof

open Sys2Proof.Machine

/-- Bytes that complete a piece of at most `n` bytes: at least the last one, at most all. -/
def completes (n : Nat) (rest : List Byte) : Bool :=
  within 1 n rest.length

/-- A header given whole is of the row: its check passes and `row` holds of what becomes of it. A header of which
bytes were collected before cannot be told from the command alone. -/
def headerOf (row : LinkFate → Bool) (rest : List Byte) : Bool :=
  completes 8 rest &&
  (decide (rest.length < 8) ||
    match checkHeader rest with
    | .good h => row (linkFate (linkHeader h))
    | .corrected h => row (linkFate (linkHeader h))
    | .bad => false)

/-- A header given whole is uncorrectable. -/
def headerBad (rest : List Byte) : Bool :=
  completes 8 rest && (decide (rest.length < 8) || checkHeader rest == .bad)

/-- The row's kind completes at its header. -/
def completeAs (k : LinkKind) (f : LinkFate) : Bool := f == .complete k

/-- The well-formed commands. -/
def Instr.WellFormed : Instr → Bool
  | .deviceReset _ _ => true
  | .resetEnd _ => true
  | .configReadComplete _ rest => completes Config.imageBytes rest
  | .ringLossOfSignal _ => true
  | .ringSignalPresent _ => true
  | .ringStartMarker _ => true
  | .ringFill _ => true
  | .ringHeaderTaken _ rest => completes 8 rest
  | .ringPacketComplete _ rest order => completes (Config.maxRingLength + 2) rest && order.valid
  | .ringTransmissionComplete _ => true
  | .entryAged _ order => order.valid
  | .frameStart _ order => order.valid
  | .listeningCountEnd _ order => order.valid
  | .faultHoldExpiry _ order => order.valid
  | .outstandingExpiry _ order => order.valid
  | .holdoverEntry _ order => order.valid
  | .holdoverExpiry _ order => order.valid
  | .lineStart _ => true
  | .transferComplete _ => true
  | .linkLossOfSignal _ => true
  | .linkSignalPresent _ => true
  | .linkStartMarker _ => true
  | .linkFill _ => true
  | .linkHdrBad _ rest => headerBad rest
  | .linkLengthBad _ rest => headerOf (fun f => f == .tooLong || f == .wrongLength) rest
  | .unknownKind _ rest => headerOf (· == .unknown) rest
  | .filler _ rest => headerOf (· == .filler) rest
  | .frameBegin _ rest => headerOf (completeAs .frameBegin) rest
  | .line _ rest => completes (Config.maxLinkLength + 2) rest
  | .frameEnd _ rest => headerOf (completeAs .frameEnd) rest
  | .poll _ rest => headerOf (completeAs .poll) rest
  | .reportComplete _ => true
  | .clear _ rest => headerOf (completeAs .clear) rest
  | .linkReset _ rest => headerOf (completeAs .linkReset) rest
  | .withdraw _ rest => headerOf (completeAs .withdraw) rest
  | .rejoin _ rest => headerOf (completeAs .rejoin) rest
  | .linkHeaderTaken _ rest => headerOf (· == .linePayload) rest
  | .skipLastByte _ => true

end Sys2Proof
end

