-- ==== Sys2Proof/Tests/Slice0.lean ====
section
/-! SUPPORT. Tests: the smoke test of WellFormed, and small tests whose expected results come from the spec's own
worked examples. -/

namespace Sys2Proof.Tests

open Sys2Proof Sys2Proof.Machine

-- Each test waits for the kernel on its own: side by side they would hold more threads than a check allows.
set_option Elab.async false

/-! ### Helpers: a configuration, a station, and commands with nothing passed before them -/

/-- The configuration of the worked example of 5.7, with W = 64. -/
def cfg : Settings :=
  { address := 4, group := 1, capable := true, policy := .next, format := .p24, slotCount := 3, lineTicks := 1400,
    vb := 110, h := 1080, w := 64, lockWindow := 2000, slewLimit := 500, segmentDelay := 350,
    background := 0x102030 }

/-- A station just after entry to RUNNING with both lanes in HUNT, its notice set emptied. -/
def running : State :=
  { (State.enterRunning cfg.image cfg State.reset) with
    ringIn := { RingReceiver.reset with state := .hunt },
    link := { LinkReceiver.reset true with state := .hunt }, notices := 0 }

/-- The same station with RING OUT busy. -/
def busy : State :=
  { running with ringOut := { running.ringOut with sending := some { source := .own .beat, bytes := [] } } }

/-- The order that `FrameOrder.canonical` gives, with no ticks for the composition. -/
def order : FrameOrder := ⟨FrameOrder.canonical, 0⟩

/-- A source link header. -/
def link (kind : Byte) (a b : Nat) (length : Nat) : LinkHeader :=
  ⟨kind, BitVec.ofNat 16 a, BitVec.ofNat 16 b, BitVec.ofNat 14 length⟩

/-- Its 8 bytes. -/
def linkBytes (kind : Byte) (a b : Nat) (length : Nat) : List Byte := protectHeader (link kind a b length).bits

/-- A state whose Source Link Receiver has just taken a start marker. -/
def linkStarted (s : State) : State :=
  { s with link := { s.link with state := .header, packet := some ⟨[], none, 0⟩ } }

/-- A state whose Source Link Receiver collects the payload of a LINE with this header. -/
def linePayload (h : LinkHeader) (s : State) : State :=
  { s with link := { s.link with state := .payload, packet := some ⟨[], some h, h.length.toNat + 2⟩ } }

/-- A ring header of Hops 30 with TAINT clear. -/
def ring (kind : Byte) (group : Group) (origin : Address) (sequence : Byte) (length : Nat) : RingHeader :=
  { kind := kind, group := group, origin := origin, sequence := sequence, hops := 30, taint := false, zeroHops := 0,
    length := BitVec.ofNat 6 length, zeroLength := 0, delay := 0 }

/-- A state whose Ring Receiver took a start marker at station time 140. -/
def ringStarted (s : State) : State :=
  { s with ringIn := { s.ringIn with state := .header, packet := some ⟨140, [], none, false⟩ } }

/-- A state whose Ring Receiver collects the payload of a packet with this header. -/
def ringPayload (h : RingHeader) (s : State) : State :=
  { s with
    ringIn := { s.ringIn with state := .payload, packet := some ⟨140, [], some h, true⟩ },
    ringOut := { s.ringOut with occupancy := s.ringOut.occupancy + h.size } }

/-- A payload and its CRC. -/
def withCrc (payload : List Byte) : List Byte := payload ++ bytes16 (crc16 payload)

/-- A value of the next state, where there is one. -/
def after {α : Type} (f : State → α) : Host.Outcome State Fault Refusal → Option α
  | .next t => some (f t)
  | .fault _ => none
  | .refused _ => none

/-! ### WellFormed: an ill-formed term for each check, and a well-formed one for each -/

theorem test_wellFormed_configRead :
    Instr.WellFormed (.configReadComplete {} []) = false ∧
      Instr.WellFormed (.configReadComplete {} (List.replicate 25 0)) = false ∧
      Instr.WellFormed (.configReadComplete {} cfg.image) = true := by decide +kernel

theorem test_wellFormed_ringHeader :
    Instr.WellFormed (.ringHeaderTaken {} []) = false ∧
      Instr.WellFormed (.ringHeaderTaken {} (List.replicate 9 0)) = false ∧
      Instr.WellFormed (.ringHeaderTaken {} (List.replicate 8 0)) = true := by decide +kernel

theorem test_wellFormed_ringPacket :
    Instr.WellFormed (.ringPacketComplete {} [] order) = false ∧
      Instr.WellFormed (.ringPacketComplete {} (List.replicate 59 0) order) = false ∧
      Instr.WellFormed (.ringPacketComplete {} [0] ⟨[], 0⟩) = false ∧
      Instr.WellFormed (.ringPacketComplete {} (List.replicate 58 0) order) = true := by decide +kernel

/-- An order that lacks a part, composes before the role is settled, or presents before the ended frame is settled. -/
theorem test_wellFormed_order :
    FrameOrder.valid ⟨[.role, .settle, .present, .firstLine, .compose, .holds, .offer], 0⟩ = false ∧
      FrameOrder.valid ⟨[.compose, .role, .settle, .present, .firstLine, .holds, .offer, .expire], 0⟩ = false ∧
      FrameOrder.valid ⟨[.role, .present, .settle, .firstLine, .compose, .holds, .offer, .expire], 0⟩ = false ∧
      FrameOrder.valid ⟨[.offer, .role, .settle, .present, .firstLine, .compose, .holds, .expire], 0⟩ = false ∧
      FrameOrder.valid ⟨[.role, .offer, .settle, .present, .firstLine, .compose, .holds, .expire], 0⟩ = true ∧
      FrameOrder.valid ⟨[.expire, .holds, .settle, .firstLine, .present, .role, .compose, .offer], 7⟩ = true := by
  decide +kernel

theorem test_wellFormed_frameStarts :
    Instr.WellFormed (.frameStart {} ⟨[], 0⟩) = false ∧ Instr.WellFormed (.listeningCountEnd {} ⟨[], 0⟩) = false ∧
      Instr.WellFormed (.faultHoldExpiry {} ⟨[], 0⟩) = false ∧
      Instr.WellFormed (.outstandingExpiry {} ⟨[], 0⟩) = false ∧
      Instr.WellFormed (.holdoverEntry {} ⟨[], 0⟩) = false ∧ Instr.WellFormed (.holdoverExpiry {} ⟨[], 0⟩) = false ∧
      Instr.WellFormed (.entryAged {} ⟨[], 0⟩) = false ∧ Instr.WellFormed (.frameStart {} order) = true := by
  decide +kernel

/-- A header given whole must be the one that the row names; here each row is given another row's header. -/
theorem test_wellFormed_linkHeaders_ill :
    Instr.WellFormed (.linkHdrBad {} (linkBytes 0x10 1 0 0)) = false ∧
      Instr.WellFormed (.linkLengthBad {} (linkBytes 0x10 1 0 0)) = false ∧
      Instr.WellFormed (.unknownKind {} (linkBytes 0x10 1 0 0)) = false ∧
      Instr.WellFormed (.filler {} (linkBytes 0x10 1 0 0)) = false ∧
      Instr.WellFormed (.frameBegin {} (linkBytes 0x12 1 0 0)) = false ∧
      Instr.WellFormed (.frameEnd {} (linkBytes 0x10 1 0 0)) = false ∧
      Instr.WellFormed (.poll {} (linkBytes 0x20 1 64 4)) = false ∧
      Instr.WellFormed (.clear {} (linkBytes 0x20 1 64 0)) = false ∧
      Instr.WellFormed (.linkReset {} (linkBytes 0x21 0 0 0)) = false ∧
      Instr.WellFormed (.withdraw {} (linkBytes 0x24 0 0 0)) = false ∧
      Instr.WellFormed (.rejoin {} (linkBytes 0x23 0 0 0)) = false ∧
      Instr.WellFormed (.linkHeaderTaken {} (linkBytes 0x11 0 0 0)) = false ∧
      Instr.WellFormed (.line {} []) = false := by decide +kernel

theorem test_wellFormed_linkHeaders_well :
    Instr.WellFormed (.linkHdrBad {} [0, 0, 0, 0, 0, 0, 0, 3]) = true ∧
      Instr.WellFormed (.linkLengthBad {} (linkBytes 0x20 1 64 4)) = true ∧
      Instr.WellFormed (.unknownKind {} (linkBytes 0x30 0 0 0)) = true ∧
      Instr.WellFormed (.filler {} (linkBytes 0x13 0 0 32)) = true ∧
      Instr.WellFormed (.frameBegin {} (linkBytes 0x10 1 0 0)) = true ∧
      Instr.WellFormed (.frameEnd {} (linkBytes 0x12 1 0 0)) = true ∧
      Instr.WellFormed (.poll {} (linkBytes 0x20 1 64 0)) = true ∧
      Instr.WellFormed (.clear {} (linkBytes 0x21 1 0 0)) = true ∧
      Instr.WellFormed (.linkReset {} (linkBytes 0x22 0 0 0)) = true ∧
      Instr.WellFormed (.withdraw {} (linkBytes 0x23 0 0 0)) = true ∧
      Instr.WellFormed (.rejoin {} (linkBytes 0x24 0 0 0)) = true ∧
      Instr.WellFormed (.linkHeaderTaken {} (linkBytes 0x11 0 0 3)) = true ∧
      Instr.WellFormed (.line {} [0]) = true := by decide +kernel

/-! ### Encodings: the examples of chapter 13 -/

/-- 13.2: header bits 0 and 8 give check byte 0x1D; with bit 8 lost it is restored. -/
theorem test_headerCheck_example :
    checkByte 0x101#56 = 0x1D#8 ∧ checkHeader [1, 0, 0, 0, 0, 0, 0, 0x1D] = .corrected 0x101#56 := by decide +kernel

/-- R192: over the nine bytes 0x31 to 0x39 the CRC is 0x29B1. -/
theorem test_crc_example :
    crc16 [0x31, 0x32, 0x33, 0x34, 0x35, 0x36, 0x37, 0x38, 0x39] = 0x29B1#16 := by decide +kernel

/-- R190: the symbols of a data byte, of the start marker and of fill, and any other code, which is taken as fill. -/
theorem test_symbols :
    takeSymbol 0b01#2 0x5A#8 = .data 0x5A#8 ∧ takeSymbol 0b10#2 0xF0#8 = .startMarker ∧
      takeSymbol 0b10#2 0x0F#8 = .fill ∧ takeSymbol 0b11#2 0xF0#8 = .fill := by decide +kernel

/-- R190: on the line the prefix comes first and then bit 0 of the eight bits; what was sent is taken again. -/
theorem test_serial :
    (LineSymbol.data 0x01#8).serial = [false, true, true, false, false, false, false, false, false, false] ∧
      LineSymbol.startMarker.serial = [true, false, false, false, false, false, true, true, true, true] ∧
      receiveSerial (LineSymbol.data 0x5A#8).serial = .data 0x5A#8 ∧
      receiveSerial [true, true, false, false, false, false, true, true, true, true] = .fill := by decide +kernel

/-- R151: 31 becomes 255, 16 becomes 132, 32 of 6 bits becomes 130, 10 of 4 bits 170, and 1023 of 10 bits 255. -/
theorem test_pixelComponents :
    widen5 31 = 255 ∧ widen5 16 = 132 ∧ widen6 32 = 130 ∧ widen6 63 = 255 ∧ widen4 10 = 170 ∧
      narrow10 1023 = 255 := by decide +kernel

/-- 13.8: one group of each format, written out from its layout. -/
theorem test_pixelGroups :
    convertPixels .p24 [1, 2, 3] = [0x010203#24] ∧ convertPixels .p16 [0xF8, 0x1F] = [0xFF00FF#24] ∧
      convertPixels .p12 [0xA3, 0xF1, 0x23] = [0xAA33FF#24, 0x112233#24] ∧
      convertPixels .p30 [0xFF, 0xC0, 0, 0, 0, 0, 0, 0, 0, 0, 0, 0, 0, 0x0F, 0xFC] =
        [0xFF0000#24, 0, 0, 0x0000FF#24] := by decide +kernel

/-- 13.4: a ring header byte by byte: STANDING of group 1 from 9, sequence 5, Hops 30 with TAINT, Length 12, Delay
0x1234. -/
theorem test_ringHeader_bytes :
    ringHeader (packHeader [0x02, 0x49, 0x05, 0x5E, 0x0C, 0x12, 0x34]) =
      { kind := 0x02, group := 1, origin := 9, sequence := 5, hops := 30, taint := true, zeroHops := 0, length := 12,
        zeroLength := 0, delay := 0x1234 } := by decide +kernel

/-- 13.5: a source link header byte by byte: LINE 300 from pixel 640, Length 5,760. -/
theorem test_linkHeader_bytes :
    linkHeader (packHeader [0x11, 0x01, 0x2C, 0x02, 0x80, 0x16, 0x80]) = link 0x11 300 640 5760 := by decide +kernel

/-- 12, Worked checks: images A to C, and image D before and after its address is corrected. -/
theorem test_image_checks :
    checkImage ({ cfg with w := 1920, slotCount := 4 } : Settings).image =
        .ok { cfg with w := 1920, slotCount := 4 } ∧
      checkImage ({ cfg with lineTicks := 200, vb := 20 } : Settings).image = .error .periodRange ∧
      checkImage ({ cfg with lineTicks := 3500, vb := 255, h := 1200 } : Settings).image = .error .periodRange ∧
      checkImage (withCrc (({ cfg with address := 31 } : Settings).imageBytes.set 20 1)) =
        .error (.fieldRange .address) ∧
      checkImage (withCrc (cfg.imageBytes.set 20 1)) = .error .unusedNonzero ∧
      checkImage (List.replicate 24 0) = .error .imageCrc ∧
      checkImage (withCrc (cfg.imageBytes.set 0 0)) = .error .formatCode := by decide +kernel

/-! ### Serial order, the queue, reset -/

/-- Terms, "later than": 32,767 ahead is later, 32,768 is not. -/
theorem test_laterThan :
    laterThan 1 0 = true ∧ laterThan 0 0 = false ∧ laterThan 32767 0 = true ∧ laterThan 32768 0 = false ∧
      laterThan 0 65535 = true := by decide +kernel

/-- An empty queue idles (log 2); no table word spells a command (log 22). -/
theorem test_idle_and_words :
    after id (step State.reset) = some State.reset ∧ decodeTableWord 8 0 = none ∧
      State.withFetchWord State.reset 8 0 = State.reset := by decide +kernel

/-- R183: the read command 0x03 with address 0 stands on the configuration memory port until the image is settled; then,
and while a device reset lasts, the port is idle. -/
theorem test_configPort :
    State.reset.configPort = ⟨true, true, [0x03, 0, 0, 0]⟩ ∧ running.configPort = ⟨false, false, []⟩ ∧
      ({ State.reset with held := true } : State).configPort = ⟨false, false, []⟩ := by decide +kernel

/-- A command at the front of the queue is executed and leaves it. -/
theorem test_step_takes_front :
    after id (step (State.reset.setPending [.ringSignalPresent {}])) =
      some { State.reset with ringIn := { State.reset.ringIn with state := .hunt } } := by decide +kernel

/-- While a device reset lasts nothing is taken (R188). -/
theorem test_held_takes_nothing :
    after id (exec (.ringSignalPresent {}) { State.reset with held := true }) =
      some { State.reset with held := true } := by decide +kernel

/-- Station time goes on with the ticks given, and not past the next frame start (R74, R77; log 1). -/
theorem test_ticks :
    (running.elapse { ticks := 5 }).now = 5 ∧ (running.elapse { ticks := 2000000 }).now = 1666000 := by
  decide +kernel

/-! ### Slots: the worked sequence of 1.10 -/

/-- The slot table of 1.10 before event 1. -/
def slots0 : SlotManager :=
  { table := [⟨.shown, some 99, [], 0, false⟩, ⟨.complete, some 100, [], 0, false⟩, ⟨.free, none, [], 0, false⟩],
    complete := [100], framesCompleted := 0, evicted := 0, skipped := 0 }

/-- Event 1: slot 2 is FREE and is claimed. -/
theorem test_slots_event1 :
    slots0.claim 101 (some 101) =
      some (2, { slots0 with table := slots0.table.set 2 ⟨.filling, some 101, [], 0, false⟩ }) := by decide +kernel

/-- Event 3: no slot is FREE; slot 1 is evicted and claimed; with its frame pinned the claim would be refused. -/
theorem test_slots_event3 :
    let m := { slots0 with table := slots0.table.set 2 ⟨.closing, some 101, [], 2, false⟩ }
    m.claim 102 (some 101) =
        some (1, { m with table := m.table.set 1 ⟨.filling, some 102, [], 0, false⟩, complete := [], evicted := 1 }) ∧
      m.claim 102 (some 100) = none := by decide +kernel

/-- The last write of a CLOSING slot makes it COMPLETE (R12). -/
theorem test_slots_lastWrite :
    let m := { slots0 with table := slots0.table.set 2 ⟨.closing, some 101, [0], 1, false⟩ }
    m.writeDone none 2 1 =
      { m with
        table := m.table.set 2 ⟨.complete, some 101, [0, 1], 0, false⟩, complete := [100, 101],
        framesCompleted := 1 } := by decide +kernel

/-- The frame start of 1.10: 101 is presented, 99 is freed, and 100, had it stayed, is skipped. -/
theorem test_slots_present :
    let m := { slots0 with table := slots0.table.set 2 ⟨.complete, some 101, [], 0, false⟩, complete := [100, 101] }
    m.present 101 =
      some (2,
        { m with
          table := [⟨.free, none, [], 0, false⟩, ⟨.free, none, [], 0, false⟩, ⟨.shown, some 101, [], 0, false⟩],
          complete := [], skipped := 1 }) := by decide +kernel

/-- FRAME_BEGIN takes a FREE slot (R7, R148). -/
theorem test_frameBegin :
    after (fun t => (t.ingest.state, t.ingest.slot, t.slots.table))
        (exec (.frameBegin {} (linkBytes 0x10 101 0 0))
          (linkStarted { running with slots := slots0, presentation := { running.presentation with shown := some 99 } })) =
      some (.inFrame, some 2, slots0.table.set 2 ⟨.filling, some 101, [], 0, false⟩) := by decide +kernel

/-! ### Timing: the worked example of 5.7 -/

/-- The station of 5.7 in a lock state, with its next frame start. -/
def timed (lock : Lock) (slip : Nat) (epoch : Epoch) (now next : Nat) : State :=
  { running with
    now := BitVec.ofNat 32 now,
    timing :=
      { running.timing with
        timer := some ⟨BitVec.ofNat 32 (next - 1666000), BitVec.ofNat 32 next, 0⟩, lock := lock, slip := slip,
        epoch := epoch } }

/-- What 5.7 tabulates of a BEAT: N after, the epoch, the lock state, and whether a frame start follows at once. -/
def beatResult (s : State) (beatEpoch : Epoch) (arrival : Nat) (delay : BitVec 16) (next : Nat) :
    Option Nat × Nat × Lock × Bool :=
  let r := s.timedBeat cfg beatEpoch (BitVec.ofNat 32 arrival) delay
    ⟨BitVec.ofNat 32 (next - 1666000), BitVec.ofNat 32 next, 0⟩
  (r.1.timing.timer.map (·.next.toNat), r.1.timing.epoch.toNat, r.1.timing.lock, r.2)

/-- BEATs 1 to 3: jump, lock, trim. -/
theorem test_beats_1_to_3 :
    beatResult (timed .free 0 17 20900001 21666000) 9001 20900000 12000 21666000 =
        (some 22553650, 9001, .acquiring, false) ∧
      beatResult (timed .acquiring 0 9002 22566001 24219650) 9002 22566000 11820 24219650 =
        (some 24219650, 9002, .locked, false) ∧
      beatResult (timed .locked 0 9003 24232001 25885650) 9003 24232000 11700 25885650 =
        (some 25885950, 9003, .locked, false) := by decide +kernel

/-- BEATs 4 and 5: a slip, then a jump; and the late timer: an epoch step of one, then a trim of −500. -/
theorem test_beats_4_and_later :
    beatResult (timed .locked 0 9004 25903101 27551950) 9004 25903100 14000 27551950 =
        (some 27551950, 9004, .locked, false) ∧
      beatResult (timed .locked 1 9005 27569401 29217950) 9005 27569400 14080 29217950 =
        (some 29220970, 9005, .acquiring, false) ∧
      beatResult (timed .holdover 0 9050 101665450 101666000) 9052 101665450 300 101666000 =
        (some 101666000, 9051, .locked, false) ∧
      beatResult (timed .locked 0 9052 103331450 103332000) 9053 103331450 300 103332000 =
        (some 103331500, 9052, .locked, false) := by decide +kernel

/-- A trim that moves the next frame start to the present produces the frame start at once (R84). -/
theorem test_trim_at_once :
    (beatResult (timed .locked 0 9052 103331600 103332000) 9053 103331450 300 103332000).2.2.2 = true := by
  decide +kernel

/-! ### The ring: the worked sequences of 6.11 and 7.9 -/

/-- 6.11, arrival 4: the own packet of sequence 41 confirms 40 and 41, and the ring state becomes INTACT. -/
theorem test_ownPacket :
    after (fun t => (t.ringOut.outstanding, t.ringOut.ring, t.ringIn.stripped, t.ringIn.state))
        (exec (.ringHeaderTaken {} (protectHeader (ring 0x01 1 4 41 9).bits))
          (ringStarted
            { busy with
              ringOut := { busy.ringOut with outstanding := [⟨40, .standing, 0⟩, ⟨41, .beat, 0⟩] } })) =
      some ([], .intact, 1, .hunt) := by decide +kernel

/-- 6.11, arrival 7: 136 + 24 = 160 fits; one more packet does not. -/
theorem test_room :
    after (fun t => (t.ringOut.occupancy, t.ringIn.state))
        (exec (.ringHeaderTaken {} (protectHeader (ring 0x02 1 12 1 14).bits))
          (ringStarted { busy with ringOut := { busy.ringOut with occupancy := 136 } })) = some (160, .payload) ∧
      after (fun t => (t.ringOut.occupancy, t.ringIn.forwardOverflow))
        (exec (.ringHeaderTaken {} (protectHeader (ring 0x02 1 12 1 14).bits))
          (ringStarted { busy with ringOut := { busy.ringOut with occupancy := 137 } })) = some (137, 1) := by
  decide +kernel

/-- 7.9, event 6: B departs with Hops 27 and Delay 4,000 + 27 + 350. -/
theorem test_forwardedBeat :
    let p : RingPacket := ⟨{ ring 0x01 3 2 9 9 with hops := 28, delay := 4000 }, [], 50000140⟩
    (p.departing 50000167 350).hops = 27 ∧ (p.departing 50000167 350).delay = 4377 := by decide +kernel

/-- 3.9, events 2, 5 and 6: a new address is JOINING, an equal sequence is a duplicate, another makes it MEMBER. -/
theorem test_standings :
    let x : Standing := ⟨true, .listening, .free, .unknown, false, false, none, 0, []⟩
    let s1 := running.takeStanding cfg 7 20 x
    s1.roster.entries = [⟨7, false, x, 0, 20⟩] ∧ (s1.takeStanding cfg 7 20 x).roster.duplicateStanding = 1 ∧
      (s1.takeStanding cfg 7 23 x).roster.entries = [⟨7, true, x, 0, 23⟩] ∧
      (s1.takeStanding cfg 7 23 x).notices = 1 := by decide +kernel

/-- A STANDING that names the own address leaves the roster as it is, and a LEAVE that does keeps the own entry (log
27). -/
theorem test_own_address :
    running.takeStanding cfg 4 20 ⟨true, .follower, .locked, .intact, false, false, none, 0, []⟩ = running ∧
      (running.takeLeave 4 1).roster.ownPresent = true ∧ (running.takeLeave 4 1).roster.leavesTaken = 1 ∧
      (running.takeLeave 4 1).notices = running.notices := by decide +kernel

/-- 2.10, frame start 700: the participants' lists leave 42 and 43; NEXT takes 42, NEWEST 43. -/
theorem test_decision :
    let heard (a : Address) (l : Lock) (fs : List FrameNo) : Entry :=
      ⟨a, true, ⟨true, .follower, l, .intact, false, false, some 40, 699, fs⟩, 0, 1⟩
    let s : State :=
      { running with
        presentation := { running.presentation with shown := some 40 },
        slots := { running.slots with complete := [41, 42, 43] },
        roster := { running.roster with entries := [heard 5 .locked [41, 42, 43], heard 9 .holdover [42, 43, 44]] } }
    s.candidates = [42, 43] ∧ s.decisionOf cfg = some 42 ∧ s.decisionOf { cfg with policy := .newest } = some 43 ∧
      (s.composed cfg).participants = 3 := by decide +kernel

/-! ### Ingest, scan-out, reports -/

/-- 9.8, event 4: the second segment of a P12 line completes it, and its fill pixel is discarded. -/
theorem test_segment_completes :
    let c : Settings := { cfg with format := .p12, w := 5 }
    let s : State :=
      { running with
        transfer := some (.fetch 0 0),
        ingest := { running.ingest with
          state := .inFrame, frame := some 310, slot := some 2, openLine := some ⟨7, 4⟩, buffer := [1, 2, 3, 4] } }
    ((s.takeLine c 7 4 [0xA3, 0xF1, 0x23]).ingest.queue, (s.takeLine c 7 4 [0xA3, 0xF1, 0x23]).ingest.openLine) =
      ([⟨2, 7, [1, 2, 3, 4, 0xAA33FF]⟩], none) := by decide +kernel

/-- 10.9, event 6: the line is not VALID; background goes out, the fetch becomes STALE, and buffer 1 is released. -/
theorem test_underrun :
    let u : ScanOut :=
      { ScanOut.reset with
        slot := some 2, odd := ⟨some 1, false, []⟩, records := [⟨1, 1, true, false⟩, ⟨2, 0, false, false⟩] }
    (u.takeLine 1).records = [⟨1, 1, true, true⟩, ⟨2, 0, false, false⟩] ∧ (u.takeLine 1).underrun = 1 ∧
      (u.takeLine 1).output = .background ∧ (u.takeLine 1).odd = ⟨none, false, []⟩ := by decide +kernel

/-- A line write stores its pixels and keeps the memory's canonical form: a byte of 0 is not listed. -/
theorem test_writeLine :
    let m := Memory.writeLine { cfg with w := 2 } [] 0 1 [0x010003#24, 0x040506#24]
    m = [(6, 1), (8, 3), (9, 4), (10, 5), (11, 6)] ∧ Memory.read m 7 = 0 ∧
      Memory.readLine { cfg with w := 2 } m 0 1 = [0x010003#24, 0x040506#24] := by decide +kernel

/-- R170: with W = 1,920 each pixel stands for 1,225 of 1,920 parts of a tick, so that all 1,920 are sent; horizontal
sync covers 87 ticks of 1,400, blanking 175. -/
theorem test_panel :
    let c : Settings := { cfg with w := 1920 }
    let at' (u : Nat) : PanelPins := panelAt c (.pixels (List.replicate 1919 5 ++ [6])) 110 u
    at' (175 * 1920 - 1) = ⟨true, false, false, false, 0⟩ ∧ at' (175 * 1920) = ⟨true, false, false, true, 5⟩ ∧
      at' (175 * 1920 + 1919 * 1225 - 1) = ⟨true, false, false, true, 5⟩ ∧
      at' (175 * 1920 + 1919 * 1225) = ⟨true, false, false, true, 6⟩ ∧
      at' (1400 * 1920 - 1) = ⟨true, false, false, true, 6⟩ ∧ (at' (87 * 1920 - 1)).hsync = true ∧
      (at' (87 * 1920)).hsync = false ∧ running.panel 0 = ⟨true, true, true, false, 0⟩ ∧
      State.reset.panel 0 = ⟨false, false, false, false, 0⟩ := by decide +kernel

/-- A CLEAR that selects RING counts in PACKETS_TAKEN as it completes, and one that selects LINK zeroes that count with the
rest of its group (R141, R178). -/
theorem test_clear_counted :
    after (fun t => (t.link.packetsTaken, t.link.state))
        (exec (.clear {} (linkBytes 0x21 1 0 0)) (linkStarted running)) = some (1, .hunt) ∧
      after (fun t => (t.link.packetsTaken, t.link.state))
        (exec (.clear {} (linkBytes 0x21 2 0 0)) (linkStarted running)) = some (0, .hunt) := by decide +kernel

/-- Bytes that complete nothing join those that have come, and no more of them than leave the piece incomplete (log 3). -/
theorem test_collect :
    ((ringStarted running).elapse { ringIn := List.replicate 9 1 }).ringIn.packet =
        some ⟨140, List.replicate 7 1, none, false⟩ ∧
      ((linePayload (link 0x11 0 0 3) running).elapse { linkIn := [1, 2, 3, 4, 5, 6] }).link.packet =
        some ⟨[1, 2, 3, 4], some (link 0x11 0 0 3), 1⟩ ∧
      (State.reset.elapse { imageIn := List.replicate 30 1 }).loader.image = List.replicate 23 1 ∧
      (running.elapse { imageIn := [1] }).loader.image = cfg.image := by decide +kernel

/-- 11.9, report A: entries of 16, 14 and 16 bytes fit 50, and the next index is 12. -/
theorem test_report_cut :
    let entries : List (Nat × List Byte) :=
      [(1, List.replicate 16 0), (4, List.replicate 14 0), (9, List.replicate 16 0), (12, List.replicate 10 0)]
    let r := pageReport ⟨.roster, 0, 64⟩ 4 (List.replicate 12 0) entries
    r.payload.length = 60 ∧ r.truncated = true ∧ r.nextIndex = some 12 := by decide +kernel

/-- The first report after entry to RUNNING carries the notice set and empties it (R173). -/
theorem test_poll :
    after (fun t => (t.notices, t.report.sending.map fun r => r.payload.take 4))
        (exec (.poll {} (linkBytes 0x20 0x0001 64 0)) (linkStarted { running with notices := 2 })) =
      some (0, some [0, 2, 0x06, 0x41]) := by decide +kernel

end Sys2Proof.Tests
end

