-- ==== Sys2Proof/Tests/Witnesses.lean ====
section
/-! SUPPORT. For every statement with hypotheses, a small state and operands that meet them all together, one for each
clause that has hypotheses of its own. -/

namespace Sys2Proof.Tests

open Sys2Proof Sys2Proof.Machine

-- Each test waits for the kernel on its own: side by side they would hold more threads than a check allows.
set_option Elab.async false

/-! ### Helpers -/

/-- A source link header given whole, after its start marker, is a header that has come in. -/
theorem linkHeaderIn_started {s : State} {h : LinkHeader}
    (w : s.held = false ∧ (s.elapse {}).link.packet = some ⟨[], none, 0⟩ ∧
      (protectHeader h.bits).length = 8 ∧ checkHeader (protectHeader h.bits) = .good h.bits ∧
      linkHeader h.bits = h) :
    LinkHeaderIn {} (protectHeader h.bits) false h s :=
  ⟨w.1, _, h.bits, w.2.1, rfl, w.2.2.1, w.2.2.2.1, w.2.2.2.2⟩

/-- A ring header given whole, after its start marker, is a header that has come in. -/
theorem ringHeaderIn_started {s : State} {h : RingHeader}
    (w : s.held = false ∧ (s.elapse {}).ringIn.packet = some ⟨140, [], none, false⟩ ∧
      (protectHeader h.bits).length = 8 ∧ checkHeader (protectHeader h.bits) = .good h.bits ∧
      ringHeader h.bits = h) :
    RingHeaderIn {} (protectHeader h.bits) false h 140 s :=
  ⟨w.1, _, h.bits, w.2.1, rfl, w.2.2.1, w.2.2.2.1, w.2.2.2.2, rfl⟩

/-- A payload and CRC given whole are a body that has come in. -/
theorem ringBodyIn_payload {s : State} {h : RingHeader} {body : List Byte}
    (w : s.held = false ∧ (s.elapse {}).ringIn.packet = some ⟨140, [], some h, true⟩ ∧
      body.length = h.length.toNat + 2) :
    RingBodyIn {} body h body 140 s :=
  ⟨w.1, _, w.2.1, rfl, rfl, w.2.2, rfl⟩

/-- A payload and CRC of a LINE given whole are a body that has come in. -/
theorem lineIn_payload {s : State} {h : LinkHeader} {body : List Byte}
    (w : s.held = false ∧ (s.elapse {}).link.state = .payload ∧
      (s.elapse {}).link.packet = some ⟨[], some h, h.length.toNat + 2⟩ ∧ body.length = h.length.toNat + 2) :
    LineIn {} body h body s :=
  ⟨w.1, w.2.1, _, w.2.2.1, rfl, rfl, w.2.2.2⟩

/-- A property of the configuration in force holds of the one that is in force. -/
theorem ofSettled {p : Settings → Prop} {o : Option Settings} (h : o = some cfg) (k : p cfg) : ∀ c, o = some c → p c := by
  intro c hc
  rw [h] at hc
  cases hc
  exact k

/-- What holds of every row of a table, with its place, holds of the row found at a place. -/
theorem ofTable {rows : List Slot} {p : Nat → Slot → Prop} (k : ∀ x ∈ rows.zipIdx, p x.2 x.1) :
    ∀ (i : Nat) (r : Slot), rows[i]? = some r → p i r := fun i r h =>
  k (r, i) (List.mk_mem_zipIdx_iff_getElem?.2 h)

/-- The next frame start of `running` lies T after its last. -/
def firstTimer : FrameTimer := { last := 0, next := 1666000, line := 0 }

/-! ### The queue, reset, the image -/

/-- A station whose read is under way. -/
def configuring : State := { State.reset with ringIn := { RingReceiver.reset with state := .hunt } }

theorem test_witness_DeviceResetAndItsEnd :
    (100 : Nat) ≤ 100 ∧ running.cutWrite = none ∧
      ({ running with transfer := some (.write ⟨2, 1079, []⟩) } : State).cutWrite =
        some (2 * (64 * 1080 * 3) + 1079 * (64 * 3), 64 * 3) ∧
      (running.held = false ∧ 99 < 100) ∧
      (let s : State := { running with held := true };
        s.held = true ∧ after (fun t => decide (t = s)) (exec (.frameStart {} order) s) = some true ∧
          after (fun t => decide (t = s)) (exec (.deviceReset {} (.resetPin 99)) s) = some true ∧
          after (fun t => t.link.signal) (exec (.linkLossOfSignal {}) s) = some false) := by decide +kernel

/-- Time that passes while the frame timer runs and while it does not; a header, a payload and a skip that lack one byte,
and an image that does. -/
theorem test_witness_PassingTimeChangesOnly :
    let h := ring 3 1 9 1 1
    let last : LinkHeader := link 0x13 0 0 4
    let ringAt (n : Nat) (h : Option RingHeader) : State :=
      { running with ringIn := { running.ringIn with packet := some ⟨140, List.replicate n 0, h, h.isSome⟩ } }
    let linkAt (n : Nat) (h : Option LinkHeader) (left : Nat) : State :=
      { running with link := { running.link with packet := some ⟨List.replicate n 0, h, left⟩ } }
    configuring.timing.timer = none ∧ running.timing.timer = some firstTimer ∧
      (firstTimer.next - running.now).toNat < 2147483648 ∧ running.ringIn.packet = none ∧
      (ringAt 7 none).ringIn.packet = some ⟨140, List.replicate 7 0, none, false⟩ ∧
      (ringAt 2 (some h)).ringIn.packet = some ⟨140, [0, 0], some h, true⟩ ∧ 2 ≤ h.length.toNat + 1 ∧
      (linkAt 7 none 0).link.packet = some ⟨List.replicate 7 0, none, 0⟩ ∧
      (linkAt 0 (some last) 1).link.packet = some ⟨[], some last, 1⟩ ∧ configuring.loader.station = .configuring ∧
      ({ configuring.loader with image := List.replicate 23 0 } : Loader).image.length < 24 := by decide +kernel

theorem test_witness_GoodImageEntersRunning :
    (configuring.held = false ∧ configuring.loader.station = .configuring ∧
      ((configuring.elapse {}).loader.image ++ cfg.image).length = 24 ∧
      checkImage ((configuring.elapse {}).loader.image ++ cfg.image) = .ok cfg ∧
      checkImage ((configuring.elapse {}).loader.image ++ ({ cfg with vb := 2 } : Settings).image) =
        .ok { cfg with vb := 2 }) ∧
      QuietLaw configuring :=
  ⟨by decide +kernel, fun _ => by decide +kernel⟩

theorem test_witness_BadImageEntersConfigFault :
    configuring.held = false ∧ configuring.loader.station = .configuring ∧
      ((configuring.elapse {}).loader.image ++ List.replicate 24 0).length = 24 ∧
      checkImage ((configuring.elapse {}).loader.image ++ List.replicate 24 0) = .error .imageCrc := by decide +kernel

/-- The image of `cfg` with bytes changed, and its CRC. -/
def edited (changes : List (Nat × Byte)) : List Byte :=
  withCrc (changes.foldl (fun image x => image.set x.1 x.2) cfg.imageBytes)

/-- The first field out of range of such an image. -/
def faultyField (changes : List (Nat × Byte)) : Option ImageField :=
  match checkImage (edited changes) with
  | .error (.fieldRange f) => some f
  | _ => none

/-- Each field at one below its range or one above it; and three faults at once, of which the first in the table counts. -/
theorem test_witness_BadImageEntersConfigFault_fields :
    ([[(1, 31)], [(3, 28)], [(3, 16)], [(3, 40)], [(4, 0), (5, 199)], [(6, 1)], [(7, 0), (8, 63)], [(7, 4), (8, 177)],
        [(9, 0), (10, 63)], [(9, 7), (10, 129)], [(11, 0), (12, 0)], [(13, 0), (14, 0)], [(13, 16), (14, 0)],
        [(15, 16), (16, 0)], [(20, 1), (3, 28), (1, 31)]] : List (List (Nat × Byte))).map faultyField =
      [some .address, some .format, some .slotCount, some .slotCount, some .lineTicks, some .vb, some .h, some .h,
        some .w, some .w, some .lockWindow, some .slewLimit, some .slewLimit, some .segmentDelay,
        some .address] := by decide +kernel

/-- An image for each other check of R184 that fails, the checks before it being passed: the CRC, the format code, each
byte with an unused bit, and the period below and above its range; and one that passes them all. -/
theorem test_witness_BadImageEntersConfigFault_checks :
    (crc16 ((List.replicate 24 0).take 22)).toNat ≠ 0 ∧ checkImage (edited [(0, 0)]) = .error .formatCode ∧
      (∀ x ∈ ([(1, 36), (2, 47), (3, 88), (20, 1), (21, 128)] : List (Nat × Byte)),
        checkImage (edited [x]) = .error .unusedNonzero) ∧
      (419 * (110 + 1080) < 500000 ∧ checkImage (edited [(4, 1), (5, 163)]) = .error .periodRange) ∧
      (4000000 < 3362 * (110 + 1080) ∧ checkImage (edited [(4, 13), (5, 34)]) = .error .periodRange) ∧
      checkImage (edited []) = .ok cfg := by decide +kernel

/-- The ends of the ranges: the least and the greatest values that the frame period admits together. -/
theorem test_witness_ImageRoundTrip :
    let ok (c : Settings) : Prop :=
      c.address ≠ 31 ∧ (c.slotCount = 3 ∨ c.slotCount = 4) ∧ (200 ≤ c.lineTicks ∧ c.lineTicks ≤ 65535) ∧
        (2 ≤ c.vb ∧ c.vb ≤ 255) ∧ (64 ≤ c.h ∧ c.h ≤ 1200) ∧ (64 ≤ c.w ∧ c.w ≤ 1920) ∧
        (1 ≤ c.lockWindow ∧ c.lockWindow ≤ 65535) ∧ (1 ≤ c.slewLimit ∧ c.slewLimit ≤ 4095) ∧ c.segmentDelay ≤ 4095 ∧
        (500000 ≤ c.lineTicks * (c.vb + c.h) ∧ c.lineTicks * (c.vb + c.h) ≤ 4000000)
    ok { cfg with address := 30, slotCount := 4, w := 1920, lockWindow := 65535, slewLimit := 4095,
                  segmentDelay := 4095 } ∧
      ok { cfg with address := 0, lineTicks := 60000, vb := 2, h := 64, w := 64, lockWindow := 1, slewLimit := 1,
                    segmentDelay := 0 } ∧
      (cfg.image.length = 24 ∧ checkImage cfg.image = .ok cfg) := by decide +kernel

/-! ### Ring reception -/

/-- Out of DOWN; a start marker, fill and data; and data that comes between packets, as the first and the last byte of a
header, and as the first and the last of a payload and its CRC. -/
theorem test_witness_RingSignalAndFraming :
    let h := ring 3 1 9 1 1
    let at' (n : Nat) (h : Option RingHeader) : State :=
      { running with ringIn := { running.ringIn with packet := some ⟨140, List.replicate n 0, h, h.isSome⟩ } }
    let taken (n : Nat) (h : Option RingHeader) : Prop :=
      (at' n h).held = false ∧ ((at' n h).elapse {}).ringIn.packet = some ⟨140, List.replicate n 0, h, h.isSome⟩
    (running.held = false ∧ (running.elapse {}).ringIn.state ≠ .down ∧ (running.elapse {}).ringIn.packet = none) ∧
      takeSymbol 0b10#2 0xF0#8 = .startMarker ∧ takeSymbol 0b00#2 0xF0#8 = .fill ∧
      takeSymbol 0b01#2 0xF0#8 = .data 0xF0#8 ∧ taken 0 none ∧ taken 7 none ∧ taken 0 (some h) ∧ taken 2 (some h) ∧
      2 = h.length.toNat + 1 := by decide +kernel

/-- A header of another station: two wrong bits, Length 57, Hops 0, and 24 bytes where 137 are taken. -/
theorem test_witness_RingHeaderDiscards :
    (let s := ringStarted busy;
      s.held = false ∧ (s.elapse {}).ringIn.packet = some ⟨140, [], none, false⟩ ∧
        checkHeader ([] ++ [0, 0, 0, 0, 0, 0, 0, 3]) = .bad) ∧
      (RingHeaderIn {} (protectHeader (ring 2 1 9 1 57).bits) false (ring 2 1 9 1 57) 140 (ringStarted busy) ∧
        56 < (ring 2 1 9 1 57).length.toNat) ∧
      (let h := { ring 2 1 9 1 56 with hops := 0 };
        RingHeaderIn {} (protectHeader h.bits) false h 140 (ringStarted busy) ∧ h.length.toNat ≤ 56 ∧
          (∀ c, (ringBase {} false (ringStarted busy)).active = some c → h.origin ≠ c.address)) ∧
      (let h := ring 2 1 9 1 14
        let s := ringStarted { busy with ringOut := { busy.ringOut with occupancy := 137 } };
        RingHeaderIn {} (protectHeader h.bits) false h 140 s ∧ h.hops ≠ 0 ∧
          (∀ c, (ringBase {} false s).active = some c → h.origin ≠ c.address) ∧
          160 < (ringBase {} false s).ringOut.occupancy + (if h.length = 0 then 8 else 10 + h.length.toNat)) :=
  ⟨by decide +kernel, ⟨ringHeaderIn_started (by decide +kernel), by decide +kernel⟩,
    ⟨ringHeaderIn_started (by decide +kernel), by decide +kernel,
      ofSettled (p := fun c => _ ≠ c.address) (by decide +kernel) (by decide +kernel)⟩,
    ringHeaderIn_started (by decide +kernel), by decide +kernel,
    ofSettled (p := fun c => _ ≠ c.address) (by decide +kernel) (by decide +kernel), by decide +kernel⟩

/-- The packets of sequence 40 and 41 are outstanding; 41 comes home, and then 7, which is not in the list. -/
theorem test_witness_OwnPacketComesHome :
    let s := ringStarted
      { busy with ringOut := { busy.ringOut with outstanding := [⟨40, .standing, 0⟩, ⟨41, .beat, 0⟩] } }
    (RingHeaderIn {} (protectHeader (ring 1 1 4 41 9).bits) false (ring 1 1 4 41 9) 140 s ∧
      (ring 1 1 4 41 9).length.toNat ≤ 56 ∧ (ringBase {} false s).active = some cfg ∧
      (ring 1 1 4 41 9).origin = cfg.address ∧
      (ringBase {} false s).ringOut.outstanding = [⟨40, .standing, 0⟩] ++ ⟨41, .beat, 0⟩ :: [] ∧
      (∀ x ∈ [(⟨40, .standing, 0⟩ : Outstanding)], x.sequence ≠ (ring 1 1 4 41 9).sequence)) ∧
    RingHeaderIn {} (protectHeader (ring 1 1 4 7 9).bits) false (ring 1 1 4 7 9) 140 s ∧
      (∀ x ∈ (ringBase {} false s).ringOut.outstanding, x.sequence ≠ (ring 1 1 4 7 9).sequence) :=
  ⟨⟨ringHeaderIn_started (by decide +kernel), by decide +kernel⟩, ringHeaderIn_started (by decide +kernel),
    by decide +kernel⟩

/-- A header of another station, with Hops, that fits the forward queue. -/
def fits (h : RingHeader) (s : State) : Prop :=
  RingHeaderIn {} (protectHeader h.bits) false h 140 s ∧
    (∀ c, (ringBase {} false s).active = some c → h.origin ≠ c.address) ∧ h.length.toNat ≤ 56 ∧ h.hops ≠ 0 ∧
    (ringBase {} false s).ringOut.occupancy + (if h.length = 0 then 8 else 10 + h.length.toNat) ≤ 160

theorem fits_started {h : RingHeader} {s : State}
    (w : s.held = false ∧ (s.elapse {}).ringIn.packet = some ⟨140, [], none, false⟩ ∧
      (protectHeader h.bits).length = 8 ∧ checkHeader (protectHeader h.bits) = .good h.bits ∧
      ringHeader h.bits = h)
    (k : (ringBase {} false s).active = some cfg ∧ h.origin ≠ cfg.address)
    (room : h.length.toNat ≤ 56 ∧ h.hops ≠ 0 ∧
      (ringBase {} false s).ringOut.occupancy + (if h.length = 0 then 8 else 10 + h.length.toNat) ≤ 160) :
    fits h s :=
  ⟨ringHeaderIn_started w, ofSettled (p := fun c => _ ≠ c.address) k.1 k.2, room⟩

/-- 136 + 24 = 160 fits, and so does 152 + 8 with a packet of Length 0 and of group 3. Packets of Length 0 of the own
group: a BEAT at an IDLE RING OUT, a STANDING at a busy one, and one of kind 4. -/
theorem test_witness_RingHeaderReservesRoom :
    (let h := ring 2 1 9 1 14;
      fits h (ringStarted { busy with ringOut := { busy.ringOut with occupancy := 136 } }) ∧ h.length ≠ 0) ∧
      (let h := ring 2 3 9 1 0
        let s := ringStarted { busy with ringOut := { busy.ringOut with occupancy := 152 } };
        fits h s ∧ h.length = 0 ∧ (∀ c, (ringBase {} false s).active = some c → h.group ≠ c.group)) ∧
      (let h := ring 1 1 9 1 0;
        fits h (ringStarted running) ∧ h.length = 0 ∧ h.taint = false ∧
          (ringBase {} false (ringStarted running)).active = some cfg ∧ h.group = cfg.group) ∧
      (let h := ring 2 1 9 1 0;
        fits h (ringStarted busy) ∧ h.length = 0 ∧ h.taint = false ∧
          (ringBase {} false (ringStarted busy)).active = some cfg ∧ h.group = cfg.group) ∧
      (let h := ring 4 1 9 1 0;
        fits h (ringStarted busy) ∧ h.length = 0 ∧ h.kind ≠ 0x01#8 ∧ h.kind ≠ 0x02#8 ∧ h.kind ≠ 0x03#8) :=
  ⟨⟨fits_started (by decide +kernel) (by decide +kernel) (by decide +kernel), by decide +kernel⟩,
    ⟨fits_started (by decide +kernel) (by decide +kernel) (by decide +kernel), by decide +kernel,
      ofSettled (p := fun c => _ ≠ c.group) (by decide +kernel) (by decide +kernel)⟩,
    ⟨fits_started (by decide +kernel) (by decide +kernel) (by decide +kernel), by decide +kernel⟩,
    ⟨fits_started (by decide +kernel) (by decide +kernel) (by decide +kernel), by decide +kernel⟩,
    fits_started (by decide +kernel) (by decide +kernel) (by decide +kernel), by decide +kernel⟩

/-- A tainted packet at an IDLE RING OUT, one whose CRC fails, one of group 3, and one of the own group and of kind 4. -/
theorem test_witness_RingPacketIsForwarded :
    (let h := { ring 3 1 9 1 1 with taint := true };
      RingBodyIn {} (withCrc [1]) h (withCrc [1]) 140 (ringPayload h running) ∧ h.taint = true) ∧
      (let h := ring 3 1 9 1 1;
        RingBodyIn {} [1, 0, 0] h [1, 0, 0] 140 (ringPayload h busy) ∧ crcGood h.length.toNat [1, 0, 0] = false) ∧
      (let h := ring 3 3 9 1 1;
        RingBodyIn {} (withCrc [1]) h (withCrc [1]) 140 (ringPayload h busy) ∧
          (∀ c, ((ringPayload h busy).elapse {}).active = some c → h.group ≠ c.group)) ∧
      (let h := ring 4 1 9 1 1;
        RingBodyIn {} (withCrc [1]) h (withCrc [1]) 140 (ringPayload h busy) ∧ h.kind ≠ 0x01#8 ∧ h.kind ≠ 0x02#8 ∧
          h.kind ≠ 0x03#8) :=
  ⟨⟨ringBodyIn_payload (by decide +kernel), by decide +kernel⟩,
    ⟨ringBodyIn_payload (by decide +kernel), by decide +kernel⟩,
    ⟨ringBodyIn_payload (by decide +kernel),
      ofSettled (p := fun c => _ ≠ c.group) (by decide +kernel) (by decide +kernel)⟩,
    ringBodyIn_payload (by decide +kernel), by decide +kernel⟩

/-! ### The roster -/

/-- A STANDING of one frame number. -/
def spoken : Standing := ⟨true, .follower, .locked, .intact, false, false, some 40, 7, [41]⟩

/-- The busy station with an entry at address 9 that is still JOINING. -/
def joining : State :=
  { busy with roster := { busy.roster with entries := [⟨9, false, spoken, 3, 20⟩] } }

/-- The busy station as ORIGIN, with a capable MEMBER at a higher address. -/
def origin : State :=
  { busy with
    role := { busy.role with role := .origin, current := some 4 },
    timing := { busy.timing with lock := .reference },
    roster := { busy.roster with entries := [⟨9, true, spoken, 0, 20⟩] } }

/-- A JOINING entry that becomes MEMBER; a STANDING that names the own address; and one from the JOINING entry at address
2 that makes the ORIGIN yield. -/
theorem test_witness_StandingUpdatesRoster :
    (let h := ring 2 1 9 21 10
      let s := ringPayload h joining;
      OwnGroupIn {} (withCrc spoken.payload) 0x02 h (withCrc spoken.payload) 140 cfg s ∧ h.origin ≠ 31 ∧
        parseStanding ((withCrc spoken.payload).take h.length.toNat) = some spoken ∧ h.origin ≠ cfg.address ∧
        findEntry h.origin (s.elapse {}).roster.entries = some ⟨9, false, spoken, 3, 20⟩ ∧
        (20 : Byte) ≠ h.sequence ∧ (s.elapse {}).role.role ≠ .origin) ∧
      (let h := ring 2 1 4 21 10;
        OwnGroupIn {} (withCrc spoken.payload) 0x02 h (withCrc spoken.payload) 140 cfg (ringPayload h joining) ∧
          h.origin ≠ 31 ∧ parseStanding ((withCrc spoken.payload).take h.length.toNat) = some spoken ∧
          h.origin = cfg.address) ∧
      (let h := ring 2 1 2 21 10
        let s := ringPayload h { origin with roster := { origin.roster with entries := [⟨2, false, spoken, 3, 20⟩] } };
        OwnGroupIn {} (withCrc spoken.payload) 0x02 h (withCrc spoken.payload) 140 cfg s ∧ h.origin ≠ 31 ∧
          parseStanding ((withCrc spoken.payload).take h.length.toNat) = some spoken ∧
          (s.elapse {}).role.role = .origin ∧ h.origin.toNat < cfg.address.toNat ∧ spoken.capable = true ∧
          findEntry h.origin (s.elapse {}).roster.entries = some ⟨2, false, spoken, 3, 20⟩ ∧ (20 : Byte) ≠ h.sequence) :=
  ⟨⟨⟨ringBodyIn_payload (by decide +kernel), by decide +kernel⟩, by decide +kernel⟩,
    ⟨⟨ringBodyIn_payload (by decide +kernel), by decide +kernel⟩, by decide +kernel⟩,
    ⟨ringBodyIn_payload (by decide +kernel), by decide +kernel⟩, by decide +kernel⟩

theorem test_witness_LeavesAndBadContent :
    (let h := ring 3 1 9 21 1;
      OwnGroupIn {} (withCrc [1]) 0x03 h (withCrc [1]) 140 cfg (ringPayload h joining) ∧ h.origin ≠ 31 ∧
        h.length = 1) ∧
      (let h := ring 2 1 9 21 1;
        OwnGroupIn {} (withCrc [1]) 0x02 h (withCrc [1]) 140 cfg (ringPayload h joining) ∧
          parseStanding ((withCrc [1]).take h.length.toNat) = none) ∧
      (let h := ring 3 1 31 21 1;
        OwnGroupIn {} (withCrc [1]) 0x03 h (withCrc [1]) 140 cfg (ringPayload h joining) ∧ h.origin = 31) ∧
      (let h := ring 3 1 9 21 2;
        OwnGroupIn {} (withCrc [1, 1]) 0x03 h (withCrc [1, 1]) 140 cfg (ringPayload h joining) ∧ h.length ≠ 1) :=
  ⟨⟨⟨ringBodyIn_payload (by decide +kernel), by decide +kernel⟩, by decide +kernel⟩,
    ⟨⟨ringBodyIn_payload (by decide +kernel), by decide +kernel⟩, by decide +kernel⟩,
    ⟨⟨ringBodyIn_payload (by decide +kernel), by decide +kernel⟩, by decide +kernel⟩,
    ⟨ringBodyIn_payload (by decide +kernel), by decide +kernel⟩, by decide +kernel⟩

/-- An order in which the STANDING offer reaches RING OUT before the composition, and before the presentation. -/
def offerFirst : FrameOrder := ⟨[.role, .offer, .settle, .present, .firstLine, .compose, .holds, .expire], 7⟩

/-- A departure with an entry of SILENCE 3, one with none, and one at a frame start that finds RING OUT IDLE, at a station
that is not ORIGIN and at an ORIGIN. -/
theorem test_witness_StandingDepartureAgesEntries :
    let waits (s : State) : State := { s with ringOut := { s.ringOut with standing := true } }
    let ready (s : State) : Prop :=
      s.held = false ∧ (s.elapse {}).loader.settled = some cfg ∧
        (s.elapse {}).ringOut.sending = some { source := .own .beat, bytes := [] } ∧
        (s.elapse {}).ringOut.queue = [] ∧ (s.elapse {}).ringOut.leave = false ∧
        (s.elapse {}).ringOut.beat = none ∧ (s.elapse {}).ringOut.standing = true
    let idle : State := { running with roster := { running.roster with entries := [⟨9, true, spoken, 3, 20⟩] } }
    (ready (waits joining) ∧ ∃ y ∈ ((waits joining).elapse {}).roster.entries, 3 ≤ y.silence) ∧ ready (waits busy) ∧
      (TimerRuns {} cfg firstTimer idle ∧ idle.loader.station = .running ∧ (idle.elapse {}).ringOut.sending = none ∧
        (idle.elapse {}).ringOut.queue = [] ∧ (idle.elapse {}).ringOut.leave = false ∧
        (idle.elapse {}).ringOut.beat = none ∧ (∃ y ∈ (idle.elapse {}).roster.entries, 3 ≤ y.silence) ∧
        after (fun t => t.role.role) (exec (.frameStart {} order) idle) = some .listening) ∧
      FramePart.before offerFirst.taken .offer .compose = true ∧
      (let leads : State := { idle with role := origin.role, timing := { idle.timing with lock := .reference } };
        TimerRuns {} cfg firstTimer leads ∧ (leads.elapse {}).ringOut.sending = none ∧
          (leads.elapse {}).ringOut.queue = [] ∧ (leads.elapse {}).ringOut.beat = none ∧
          after (fun t => (t.role.role, t.roster.entries)) (exec (.frameStart {} offerFirst) leads) =
            some (.origin, [])) := by
  unfold TimerRuns
  decide +kernel

/-! ### BEATs -/

/-- A BEAT of this period. -/
def spokenBeat (period : Nat) : Beat := ⟨7, some 41, BitVec.ofNat 24 period, 3⟩

/-- The body of a BEAT of this period. -/
def beatBody (period : Nat) : List Byte := withCrc (spokenBeat period).payload

/-- The busy station as FOLLOWER of station 4's lower neighbour, address 2. -/
def follower : State :=
  { busy with
    role := { busy.role with role := .follower, current := some 2, beatsMissed := 1 },
    timing := { busy.timing with lock := .locked } }

theorem test_witness_BeatsNotAccepted :
    (let h := ring 1 1 9 21 1;
      OwnGroupIn {} (withCrc [1]) 0x01 h (withCrc [1]) 140 cfg (ringPayload h follower) ∧ h.length ≠ 9) ∧
      (let h := ring 1 1 9 21 9;
        OwnGroupIn {} (beatBody 5) 0x01 h (beatBody 5) 140 cfg (ringPayload h follower) ∧
          (parseBeat ((beatBody 5).take 9)).period.toNat ≠ cfg.lineTicks * (cfg.vb + cfg.h)) ∧
      (let h := ring 1 1 9 21 9;
        OwnGroupIn {} (beatBody 1666000) 0x01 h (beatBody 1666000) 140 cfg (ringPayload h origin) ∧
          (parseBeat ((beatBody 1666000).take 9)).period.toNat = cfg.lineTicks * (cfg.vb + cfg.h) ∧
          (consumed h (beatBody 1666000) 140 ((ringPayload h origin).elapse {})).role.role = .origin ∧
          cfg.address.toNat < h.origin.toNat) ∧
      (let h := ring 1 1 9 21 9
        let b := consumed h (beatBody 1666000) 140 ((ringPayload h follower).elapse {});
        OwnGroupIn {} (beatBody 1666000) 0x01 h (beatBody 1666000) 140 cfg (ringPayload h follower) ∧
          b.role.role ≠ .origin ∧ b.role.current = some 2 ∧ (2 : Address) ≠ h.origin ∧
          (2 : Address).toNat ≤ h.origin.toNat ∧ b.role.beatsMissed < 2) :=
  ⟨⟨⟨ringBodyIn_payload (by decide +kernel), by decide +kernel⟩, by decide +kernel⟩,
    ⟨⟨ringBodyIn_payload (by decide +kernel), by decide +kernel⟩, by decide +kernel⟩,
    ⟨⟨ringBodyIn_payload (by decide +kernel), by decide +kernel⟩, by decide +kernel⟩,
    ⟨ringBodyIn_payload (by decide +kernel), by decide +kernel⟩, by decide +kernel⟩

theorem test_witness_SaturatedBeatIsAccepted :
    let h := { ring 1 1 2 21 9 with delay := 65535 }
    let b := consumed h (beatBody 1666000) 140 ((ringPayload h follower).elapse {})
    OwnGroupIn {} (beatBody 1666000) 0x01 h (beatBody 1666000) 140 cfg (ringPayload h follower) ∧ h.length = 9 ∧
      h.origin ≠ 31 ∧ (parseBeat ((beatBody 1666000).take 9)).period.toNat = cfg.lineTicks * (cfg.vb + cfg.h) ∧
      b.role.role ≠ .origin ∧ h.delay = 65535#16 ∧ b.role.current = some 2 ∧
      h.origin.toNat ≤ (2 : Address).toNat :=
  ⟨⟨ringBodyIn_payload (by decide +kernel), by decide +kernel⟩, by decide +kernel⟩

/-- A BEAT with a saturated Delay, and one that is timed. -/
theorem test_witness_OriginYieldsToLowerBeat :
    let ready (h : RingHeader) : Prop :=
      OwnGroupIn {} (beatBody 1666000) 0x01 h (beatBody 1666000) 140 cfg (ringPayload h origin) ∧ h.length = 9 ∧
        (parseBeat ((beatBody 1666000).take 9)).period.toNat = cfg.lineTicks * (cfg.vb + cfg.h) ∧
        (consumed h (beatBody 1666000) 140 ((ringPayload h origin).elapse {})).role.role = .origin ∧
        h.origin.toNat < cfg.address.toNat ∧ origin.timing.timer = some firstTimer
    (ready { ring 1 1 2 21 9 with delay := 65535 } ∧ ({ ring 1 1 2 21 9 with delay := 65535 }).delay = 65535#16) ∧
      ready { ring 1 1 2 21 9 with delay := 65534 } ∧ ({ ring 1 1 2 21 9 with delay := 65534 }).delay ≠ 65535#16 :=
  ⟨⟨⟨⟨ringBodyIn_payload (by decide +kernel), by decide +kernel⟩, by decide +kernel⟩, by decide +kernel⟩,
    ⟨⟨ringBodyIn_payload (by decide +kernel), by decide +kernel⟩, by decide +kernel⟩, by decide +kernel⟩

/-- The phase error of a BEAT, as `TimedBeatByLockState` forms it. -/
def errorOf (arrival delay next : Nat) : Int :=
  let t0 := BitVec.ofNat 32 arrival - BitVec.ofNat 32 delay - BitVec.ofNat 32 cfg.segmentDelay
  let d := (BitVec.ofNat 32 next - t0).toInt
  (if 2 * d ≤ cfg.period then 0 else 1 : Nat) * cfg.period - d

/-- A BEAT inside the window and one outside it, in each lock state (5.7). -/
theorem test_witness_TimedBeatByLockState :
    (timed .free 0 17 20900001 21666000).timing.lock = .free ∧
      (timed .acquiring 0 17 20900001 21666000).timing.lock = .acquiring ∧
      (timed .holdover 0 17 20900001 21666000).timing.lock = .holdover ∧
      ((timed .locked 0 17 20900001 21666000).timing.lock = .locked ∧
        (timed .locked 0 17 20900001 21666000).timing.slip = 0 ∧
        (timed .locked 1 17 20900001 21666000).timing.slip ≠ 0) ∧
      (errorOf 22566000 11820 24219650).natAbs ≤ cfg.lockWindow ∧
      ¬ (errorOf 25903100 14000 27551950).natAbs ≤ cfg.lockWindow := by decide +kernel

/-- BEATs that are accepted with Delay 65,534 and with Delay 0: the first long before the next frame start; the second,
100 ticks before it, has it produced at once. -/
theorem test_witness_TimedBeatByLockState_accepted :
    let ready (h : RingHeader) (s : State) : Prop :=
      OwnGroupIn {} (beatBody 1666000) 0x01 h (beatBody 1666000) 140 cfg (ringPayload h s) ∧ h.length = 9 ∧
        h.origin ≠ 31 ∧ (parseBeat ((beatBody 1666000).take 9)).period.toNat = cfg.lineTicks * (cfg.vb + cfg.h) ∧
        s.role.role ≠ .origin ∧ h.delay ≠ 65535#16 ∧ s.role.current = some 2 ∧
        h.origin.toNat ≤ (2 : Address).toNat ∧ s.timing.timer = some firstTimer
    ready { ring 1 1 2 21 9 with delay := 65534 } follower ∧
      (let s : State := { follower with now := 1665900 };
        ready (ring 1 1 2 21 9) s ∧ s.timing.lock = .locked ∧ (errorOf 140 0 1666000).natAbs ≤ cfg.lockWindow ∧
          max (-500) (min 500 (errorOf 140 0 1666000)) < 0 ∧
          (firstTimer.next - s.now).toInt + max (-500) (min 500 (errorOf 140 0 1666000)) ≤ 0) :=
  ⟨⟨⟨ringBodyIn_payload (by decide +kernel), by decide +kernel⟩, by decide +kernel⟩,
    ⟨⟨ringBodyIn_payload (by decide +kernel), by decide +kernel⟩, by decide +kernel⟩, by decide +kernel⟩

/-! ### Ring transmission -/

theorem test_witness_ForwardedPacketDeparts :
    let p : RingPacket := ⟨ring 2 1 9 1 14, List.replicate 16 0, 140⟩
    let s := { busy with ringOut := { busy.ringOut with queue := [p], occupancy := 24 } }
    s.held = false ∧ (s.elapse {}).ringOut.sending = some { source := .own .beat, bytes := [] } ∧
      (s.elapse {}).ringOut.queue = p :: [] := by decide +kernel

/-- Each place in turn is the first that is filled, and then none; a list of 8 entries, and a BEAT 65,535 ticks after its
frame start. -/
theorem test_witness_LocalPlacesAreServed :
    let ready (s : State) : Prop :=
      s.held = false ∧ (s.elapse {}).loader.settled = some cfg ∧
        (s.elapse {}).ringOut.sending = some { source := .own .beat, bytes := [] } ∧
        (s.elapse {}).ringOut.queue = []
    let with' (leave : Bool) (beat : Option Beat) (standing : Bool) (outstanding : List Outstanding) : State :=
      { busy with
        now := 65535,
        ringOut :=
          { busy.ringOut with leave := leave, beat := beat, standing := standing, outstanding := outstanding } }
    let full : List Outstanding := List.replicate 8 ⟨40, .beat, 0⟩
    ready (with' true none false full) ∧ ready (with' false (some (spokenBeat 1666000)) false []) ∧
      sinceStart (with' false (some (spokenBeat 1666000)) false []) = 65535 ∧ ready (with' false none true full) ∧
      8 ≤ ((with' false none true full).elapse {}).ringOut.outstanding.length ∧
      ((with' false none true full).elapse {}).ringOut.ring ≠ .broken ∧ ready (with' false none false []) := by
  decide +kernel

/-! ### Frame starts -/

/-- RING OUT IDLE, and busy at a RUNNING and at a WITHDRAWN station; VB = 110 and VB = 2. -/
theorem test_witness_FrameStartAdvances :
    let away : State := { busy with loader := { busy.loader with station := .withdrawn } }
    let c : Settings := { cfg with vb := 2 }
    let short : State := { running with loader := { running.loader with settled := some c } }
    TimerRuns {} cfg firstTimer running ∧ 2 < cfg.vb ∧ (TimerRuns {} c firstTimer short ∧ c.vb = 2) ∧
      (TimerRuns {} cfg firstTimer busy ∧ (busy.elapse {}).ringOut.sending ≠ none ∧
        busy.loader.station = .running) ∧
      (TimerRuns {} cfg firstTimer away ∧ (away.elapse {}).ringOut.sending ≠ none ∧
        away.loader.station ≠ .running) := by
  unfold TimerRuns
  decide +kernel

/-- A follower that shows 99 at epoch 5, holds 100 and 101, and has this decision pending. -/
def deciding (target : Epoch) (frame : FrameNo) : State :=
  { running with
    role := { running.role with role := .follower }, timing := { running.timing with epoch := 5 },
    slots :=
      { slots0 with table := slots0.table.set 2 ⟨.complete, some 101, [], 0, false⟩, complete := [100, 101] },
    presentation := { running.presentation with shown := some 99, decision := some ⟨target, frame⟩ } }

/-- The same with VB = 2, this scan slot and this transfer in progress. -/
def deciding2 (target : Epoch) (slot : Option Nat) (transfer : Option Transfer) : State :=
  { deciding target 101 with
    loader := { running.loader with settled := some { cfg with vb := 2 } }, transfer := transfer,
    scan := { running.scan with slot := slot } }

/-- An order in which active line 0 is requested before the presentation. -/
def presentLate : FrameOrder := ⟨[.role, .settle, .firstLine, .present, .compose, .holds, .offer, .expire], 0⟩

/-- VB = 2 and a presentation after the request of active line 0, which an idle frame memory has granted to the old scan
slot, or which waits behind a transfer in progress, or for which no scan slot was present; no presentation, with a scan slot
and with none; and a presentation before the request. -/
theorem test_witness_FrameStartAdvances_presents :
    let states : List State :=
      [deciding2 6 (some 0) none, deciding2 6 (some 0) (some (.fetch 0 5)), deciding2 6 none none,
        deciding2 9 (some 0) none, deciding2 9 none none]
    let found (o : FrameOrder) : List (Option (Option FrameNo × Option Transfer)) :=
      states.map fun s => after (fun t => (t.presentation.shown, t.transfer)) (exec (.frameStart {} o) s)
    (∀ s ∈ states, TimerRuns {} { cfg with vb := 2 } firstTimer s ∧ (s.elapse {}).ingest.queue = [] ∧
      (s.elapse {}).presentation.shown = some 99) ∧
    FramePart.before presentLate.taken .firstLine .present = true ∧
    FramePart.before order.taken .present .firstLine = true ∧
    found presentLate =
      [some (some 101, some (.fetch 0 0)), some (some 101, some (.fetch 0 5)),
        some (some 101, some (.fetch 2 0)), some (some 99, some (.fetch 0 0)),
        some (some 99, none)] ∧
    (found order).head? = some (some (some 101, some (.fetch 2 0))) := by
  unfold TimerRuns
  decide +kernel

/-- A station at its first and at its fourth frame start of LISTENING, a FOLLOWER, an ORIGIN and a STANDBY; with 2 BEATs
missed, which makes a claim, and with none. -/
theorem test_witness_ListeningEndsAtTheFourth :
    let at' (r : Role) (count missed : Nat) : State :=
      { running with role := { running.role with role := r, listening := count, beatsMissed := missed } }
    let ready (r : Role) (count missed : Nat) : Prop :=
      TimerRuns {} cfg firstTimer (at' r count missed) ∧ ((at' r count missed).elapse {}).role.role = r ∧
        ((at' r count missed).elapse {}).role.listening = count ∧
        ((at' r count missed).elapse {}).timing.lock ≠ .reference
    ready .listening 3 2 ∧ ready .listening 0 0 ∧ ready .follower 0 2 ∧ ready .follower 0 0 ∧ ready .origin 0 9 ∧
      ready .standby 0 9 ∧
      (cfg.capable = true ∧ 3 ≤ min 255 (((at' .listening 3 2).elapse {}).role.beatsMissed + 1) ∧
        ∀ y ∈ ((at' .listening 3 2).elapse {}).roster.entries, y.member = true → y.said.capable = true →
          cfg.address.toNat ≤ y.address.toNat) ∧
      ¬ 3 ≤ min 255 (((at' .follower 0 0).elapse {}).role.beatsMissed + 1) := by
  unfold TimerRuns
  decide +kernel

/-- A hold at 1, at 16 and none; an outstanding entry that expires and one that does not, behind a busy RING OUT and an IDLE
one; a full list whose oldest expires, and one with nothing to expire. -/
theorem test_witness_HoldsAndOutstandingExpire :
    let at' (s : State) (hold : Nat) (outstanding : List Outstanding) : State :=
      { s with
        timing := { s.timing with frameCount := 1 }, roster := { s.roster with conflictHold := hold },
        ringOut := { s.ringOut with outstanding := outstanding } }
    let lost (s : State) : Nat :=
      (s.elapse {}).ringOut.outstanding.countP fun o =>
        decide (2 ≤ ((s.elapse {}).timing.frameCount + 1 - o.departed).toNat)
    let ready (s : State) (n : Nat) : Prop := TimerRuns {} cfg firstTimer s ∧ lost s = n
    let full (o : Outstanding) : List Outstanding := o :: List.replicate 7 ⟨41, .beat, 1⟩
    (ready (at' running 1 []) 0 ∧ ((at' running 1 []).elapse {}).roster.conflictHold = 1) ∧
      (ready (at' running 16 []) 0 ∧ ((at' running 16 []).elapse {}).roster.conflictHold = 16) ∧
      (ready (at' busy 0 [⟨40, .beat, 0⟩, ⟨41, .beat, 1⟩]) 1 ∧
        ((at' busy 0 [⟨40, .beat, 0⟩, ⟨41, .beat, 1⟩]).elapse {}).ringOut.sending ≠ none) ∧
      (ready (at' running 0 [⟨40, .beat, 0⟩, ⟨41, .beat, 1⟩]) 1 ∧
        ((at' running 0 [⟨40, .beat, 0⟩, ⟨41, .beat, 1⟩]).elapse {}).ringOut.outstanding.length < 8) ∧
      (ready (at' running 0 (full ⟨40, .beat, 0⟩)) 1 ∧ (full ⟨40, .beat, 0⟩).length = 8) ∧
      (ready (at' running 0 (full ⟨40, .beat, 1⟩)) 0 ∧
        ((at' running 0 (full ⟨40, .beat, 1⟩)).elapse {}).ringOut.sending = none ∧
        8 ≤ ((at' running 0 (full ⟨40, .beat, 1⟩)).elapse {}).ringOut.outstanding.length) := by
  unfold TimerRuns
  decide +kernel

/-- The third missed BEAT in LOCKED, and the second; in HOLDOVER the count at 14, at 15, and at the tick of a departure. -/
theorem test_witness_HoldoverEntryAndExpiry :
    let at' (lock : Lock) (missed count : Nat) (departed : Option Tick) : State :=
      { running with
        timing :=
          { running.timing with
            lock := lock, timedMissed := missed, holdover := count, departedAt := departed } }
    let ready (lock : Lock) (missed count : Nat) (departed : Option Tick) : Prop :=
      TimerRuns {} cfg firstTimer (at' lock missed count departed) ∧
        ((at' lock missed count departed).elapse {}).timing.lock = lock ∧
        ((at' lock missed count departed).elapse {}).timing.timedMissed = missed ∧
        ((at' lock missed count departed).elapse {}).timing.holdover = count ∧
        ((at' lock missed count departed).elapse {}).timing.departedAt = departed
    ready .locked 2 0 none ∧ ready .acquiring 1 0 none ∧ ready .holdover 0 14 none ∧ ready .holdover 0 15 none ∧
      (ready .holdover 0 15 (some 1666000) ∧ firstTimer.next = 1666000) := by
  unfold TimerRuns
  decide +kernel

/-! ### The presentation agreement -/

/-- No decision, a TARGET later, a TARGET past, and at its TARGET a stale frame, a frame not held, and frame 101; and a
frame start that presents 101, so that 100 is skipped. -/
theorem test_witness_PresentationStepApplies :
    (running.role.role ≠ .standby ∧ running.presentation.decision = none) ∧
      (deciding 5 101).role.role ≠ .standby ∧
      laterThan 6 (deciding 6 101).timing.epoch = true ∧
      ((4 : Epoch) ≠ (deciding 4 101).timing.epoch ∧ laterThan 4 (deciding 4 101).timing.epoch = false) ∧
      ((deciding 5 99).presentation.decision = some ⟨5, 99⟩ ∧ 5 = (deciding 5 99).timing.epoch ∧
        (deciding 5 99).presentation.shown = some 99 ∧ laterThan 99 99 = false) ∧
      (laterThan 105 99 = true ∧ ∀ r ∈ (deciding 5 105).slots.table, ¬ (r.state = .complete ∧ r.frame = some 105)) ∧
      (laterThan 101 99 = true ∧ (deciding 5 101).slots.table[2]? = some ⟨.complete, some 101, [], 0, false⟩ ∧
        (deciding 5 101).slots.table[1]? = some ⟨.complete, some 100, [], 0, false⟩) ∧
      (TimerRuns {} cfg firstTimer (deciding 6 101) ∧
        after (fun t => (t.presentation.shown, t.slots.complete, t.slots.skipped, t.role.role))
          (exec (.frameStart {} order) (deciding 6 101)) = some (some 101, [], 1, .follower)) ∧
      (let s : State :=
          { deciding 5 101 with
            scan :=
              { running.scan with
                even := ⟨some 0, true, []⟩, odd := ⟨some 1, false, []⟩,
                records := [⟨0, 0, true, false⟩, ⟨1, 1, false, false⟩] } };
        s.presentationStep.scan.records = [⟨0, 0, true, true⟩, ⟨1, 1, true, false⟩, ⟨0, 0, false, false⟩] ∧
          s.presentationStep.transfer = some (.fetch 2 1)) := by
  unfold TimerRuns
  decide +kernel

/-- No other slot of that station holds 101. -/
theorem test_witness_PresentationStepApplies_unique :
    ∀ (j : Nat) (q : Slot), (deciding 5 101).slots.table[j]? = some q → q.state = .complete →
      q.frame = some 101 → j = 2 := by
  intro j q hj hs hf
  have hl : j < 3 := (List.getElem?_eq_some_iff.1 hj).1
  have key : ∀ k : Fin 3, ((deciding 5 101).slots.table[k.val]?.map fun r => r.frame) = some (some 101) → k.val = 2 := by
    decide +kernel
  exact key ⟨j, hl⟩ (by rw [hj]; exact congrArg some hf)

/-- A station that shows 40 and whose one participant shows 40 and holds 41: the decision is 41. Frame starts behind a
busy RING OUT, at an ORIGIN and at a FOLLOWER, and at an ORIGIN that finds it IDLE: with a BEAT 7 ticks after it, and with
the STANDING offer taken first. -/
theorem test_witness_DecisionGuarantee :
    let s := { origin with
      presentation := { origin.presentation with shown := some 40 },
      slots := { origin.slots with complete := [41] } }
    let ready (s : State) : Prop := TimerRuns {} cfg firstTimer s ∧ (s.elapse {}).ringOut.sending ≠ none
    let roleAfter (s : State) : Option Role := after (fun t => t.role.role) (exec (.frameStart {} order) s)
    (s.reference = some 40 ∧ s.decisionOf cfg = some 41 ∧ s.presentation.shown = some 40 ∧
      (∃ x ∈ s.roster.entries, x.member = true ∧ x.said.lock = .locked ∧ x.said.shown = some 40) ∧
      s.slots.complete.Pairwise (fun g h => laterThan h g = true)) ∧
    (ready s ∧ roleAfter s = some .origin) ∧ (ready follower ∧ roleAfter follower = some .follower) ∧
    (let idle : State := { s with ringOut := { s.ringOut with sending := none } };
      TimerRuns {} cfg firstTimer idle ∧ (idle.elapse {}).ringOut.sending = none ∧ (idle.elapse {}).ringOut.queue = [] ∧
        (idle.elapse {}).ringOut.leave = false ∧ roleAfter idle = some .origin ∧
        after (fun t => (t.now, t.ringOut.sending.map Sending.source, t.ringOut.standing))
          (exec (.frameStart {} { order with composeTicks := 7 }) idle) =
          some (1666007, some (.own .beat), true) ∧
        (idle.loader.station = .running ∧ FramePart.before offerFirst.taken .offer .compose = true ∧
          (idle.elapse {}).ringOut.beat = none ∧
          after (fun t => (t.now, t.ringOut.sending.map Sending.source, t.ringOut.beat.isSome))
            (exec (.frameStart {} offerFirst) idle) = some (1666007, some (.own .standing), true))) := by
  unfold TimerRuns
  decide +kernel

/-! ### Scan-out and frame memory -/

/-- The starts of blanking lines 1, VB - 2 and VB - 1, of active lines 0, H - 3, H - 2 and H - 1, and of an extra blanking
line; station time at the start of line 1 already. -/
theorem test_witness_LineStartOutputsLine :
    let at' (line : Nat) (next : Tick) : State :=
      { running with
        timing := { running.timing with timer := some { last := 0, next := next, line := line } } }
    let due (line : Nat) (next : Tick) : Prop :=
      (at' line next).held = false ∧ ((at' line next).elapse {}).loader.settled = some cfg ∧
        ((at' line next).elapse {}).timing.timer = some { last := 0, next := next, line := line } ∧
        (line + 1) * cfg.lineTicks < (next - 0).toNat
    (due 0 1666000 ∧ 0 + 1 + 2 < cfg.vb) ∧ (due 107 1666000 ∧ 107 + 1 + 2 = cfg.vb + 0) ∧
      (due 108 1666000 ∧ 108 + 1 + 2 = cfg.vb + 1) ∧ (due 109 1666000 ∧ 109 + 1 = cfg.vb + 0 ∧ 0 + 2 < cfg.h) ∧
      (due 1186 1666000 ∧ 1186 + 1 = cfg.vb + 1077 ∧ 1077 + 2 < cfg.h) ∧
      (due 1187 1666000 ∧ 1187 + 1 = cfg.vb + 1078 ∧ 1078 < cfg.h ∧ cfg.h ≤ 1078 + 2) ∧
      (due 1188 1666000 ∧ 1188 + 1 = cfg.vb + 1079 ∧ 1079 < cfg.h) ∧
      (due 1189 1666300 ∧ cfg.vb + cfg.h ≤ 1189 + 1) ∧
      ¬ ((({ at' 0 1666000 with now := 1400 } : State).elapse {}).now - 0).toNat < (0 + 1) * cfg.lineTicks := by
  decide +kernel

/-- The first and the last W-th of a tick of the active window of active lines 0 and H - 1, W being 64; and the port
without a frame timer. -/
theorem test_witness_LineStartOutputsLine_panel :
    let at' (line : Nat) (into : Nat) : State :=
      { running with
        now := BitVec.ofNat 32 (line * cfg.lineTicks + into),
        timing := { running.timing with timer := some { last := 0, next := 1666000, line := line } } }
    let place (s : State) (line part : Nat) : Nat := ((s.now - 0).toNat - line * cfg.lineTicks) * cfg.w + part
    let share := cfg.lineTicks - cfg.lineTicks / 8
    (at' 110 175).loader.settled = some cfg ∧ share = 1225 ∧
      ((cfg.vb ≤ 110 ∧ 110 < cfg.vb + cfg.h) ∧
        place (at' 110 175) 110 0 = cfg.lineTicks / 8 * cfg.w + 0 * share + 0) ∧
      ((cfg.vb ≤ 1189 ∧ 1189 < cfg.vb + cfg.h) ∧ 63 < cfg.w ∧ 1224 < share ∧
        place (at' 1189 1399) 1189 63 = cfg.lineTicks / 8 * cfg.w + 63 * share + 1224) ∧
      State.reset.timing.timer = none ∧ (List.replicate 64 (7 : Pixel)).length = cfg.w := by decide +kernel

/-- The slots when frame 101 becomes COMPLETE in slot 2, and 99 and 100 are COMPLETE already. -/
def allComplete : SlotManager :=
  { table := [⟨.complete, some 99, [], 0, false⟩, ⟨.complete, some 100, [], 0, false⟩,
      ⟨.complete, some 101, [0, 1], 0, false⟩],
    complete := [99, 100, 101], framesCompleted := 1, evicted := 0, skipped := 0 }

/-- The oldest is 99, and 100 where 99 is pinned. -/
theorem allComplete_oldest :
    OldestUnpinned none allComplete 99 0 ∧ OldestUnpinned (some 99) allComplete 100 1 :=
  ⟨⟨by decide, .inl (by decide), ⟨_, rfl, by decide⟩, fun _ _ h => absurd h (by omega)⟩,
    by decide, .inr (by decide), ⟨_, rfl, by decide⟩, fun j q hj hq =>
      ofTable (p := fun j q => j < 1 → ¬ (q.state = .complete ∧ q.frame = some 100)) (by decide) j q hq hj⟩

/-- A line of the last region, and slots in the states in which a write completes; where every slot becomes COMPLETE, 99
is evicted. -/
theorem test_witness_WriteCompletionStoresLine :
    let w : LineWrite := ⟨2, 1079, List.replicate 64 0x010203#24⟩
    let s := { running with transfer := some (.write w) }
    let last : SlotManager :=
      { allComplete with
        table := allComplete.table.set 2 ⟨.closing, some 101, [0], 1, false⟩, complete := [99, 100],
        framesCompleted := 0 }
    (s.held = false ∧ (s.elapse {}).transfer = some (.write w) ∧ (s.elapse {}).loader.settled = some cfg ∧
      w.pixels.length = cfg.w ∧
      w.slot * (cfg.w * cfg.h * 3) + w.line * (cfg.w * 3) + cfg.w * 3 ≤ 33554432) ∧
    (let m := { slots0 with table := slots0.table.set 2 ⟨.closing, some 101, [0], 1, false⟩ };
      m.table[2]? = some ⟨.closing, some 101, [0], 1, false⟩ ∧
        m.table[0]? = some ⟨.shown, some 99, [], 0, false⟩) ∧
    (last.table[2]? = some ⟨.closing, some 101, [0], 1, false⟩ ∧
      (∀ (j : Nat) (q : Slot), j ≠ 2 → last.table[j]? = some q → q.state = .complete) ∧
      ({ last with
        table := last.table.set 2 ⟨.complete, some 101, insertLine 1 [0], 0, false⟩,
        complete := last.complete ++ [101], framesCompleted := bump last.framesCompleted } : SlotManager) =
          allComplete) ∧
    (slots0.table.set 2 ⟨.closing, some 101, [], 2, false⟩)[2]? = some ⟨.closing, some 101, [], 2, false⟩ ∧
    (slots0.table.set 2 ⟨.filling, some 101, [], 1, false⟩)[2]? = some ⟨.filling, some 101, [], 1, false⟩ ∧
    (slots0.table.set 2 ⟨.draining, some 101, [], 1, false⟩)[2]? = some ⟨.draining, some 101, [], 1, false⟩ :=
  ⟨by decide +kernel, by decide +kernel,
    ⟨by decide +kernel, fun j q hj hq =>
      ofTable (p := fun j q => j ≠ 2 → q.state = .complete) (by decide +kernel) j q hq hj, by decide +kernel⟩,
    by decide +kernel⟩

/-- A fetch whose buffer still waits for it, one that is STALE, and one whose buffer has another LINE. -/
theorem test_witness_FetchCompletionFillsBuffer :
    let at' (stale : Bool) (line : Nat) : State :=
      { running with
        transfer := some (.fetch 2 0),
        scan := { running.scan with even := ⟨some line, false, []⟩, records := [⟨0, 0, true, stale⟩] } }
    let ready (stale : Bool) (line : Nat) : Prop :=
      (at' stale line).held = false ∧ ((at' stale line).elapse {}).transfer = some (.fetch 2 0) ∧
        ((at' stale line).elapse {}).loader.settled = some cfg ∧
        2 * (cfg.w * cfg.h * 3) + 0 * (cfg.w * 3) + cfg.w * 3 ≤ 33554432 ∧
        ((at' stale line).elapse {}).scan.records.find? (fun x => x.inProgress) = some ⟨0, 0, true, stale⟩ ∧
        ((at' stale line).elapse {}).scan.even.line = some line
    ready false 0 ∧ ready true 0 ∧ ready false 2 := by decide +kernel

/-! ### Source link reception -/

/-- A station filling frame 102 in slot 1, with a fetch in progress and this many writes queued. -/
def filling (queued : Nat) : State :=
  { running with
    transfer := some (.fetch 0 0),
    slots := { slots0 with table := slots0.table.set 1 ⟨.filling, some 102, [], queued, false⟩, complete := [] },
    ingest :=
      { running.ingest with
        state := .inFrame, frame := some 102, slot := some 1, accounted := [],
        queue := List.replicate queued ⟨1, 9, []⟩ } }

/-- The loss with no frame, with one in progress, and with one being discarded; the signal of a lane that is DOWN. -/
theorem test_witness_LinkSignal :
    let discards : State := { running with ingest := { running.ingest with state := .discarding, frame := some 102 } }
    let ready (s : State) (st : AssemblerState) : Prop :=
      s.held = false ∧ (s.elapse {}).loader.station ≠ .configuring ∧ (s.elapse {}).link.state ≠ .down ∧
        (s.elapse {}).ingest.state = st
    ready running .noFrame ∧ (ready (filling 2) .inFrame ∧ ((filling 2).elapse {}).ingest.slot.isSome = true) ∧
    ready discards .discarding ∧
    (configuring.held = false ∧ (configuring.elapse {}).loader.station = .configuring ∧
      (configuring.elapse {}).link.state = .down) := by decide +kernel

/-- The two packets in a skip of `LinkFraming`: a FILLER, which counts, and an unknown kind, which does not. -/
theorem test_witness_LinkFraming :
    let skipping (kind : Byte) : State :=
      { running with
        link := { running.link with state := .skip, packet := some ⟨[], some (link kind 0 0 32), 34⟩ } }
    (((skipping 0x13).elapse {}).link.packet = some ⟨[], some (link 0x13 0 0 32), 34⟩ ∧
      (link 0x13 0 0 32).kind = 0x13#8) ∧
      (((skipping 0x77).elapse {}).link.packet = some ⟨[], some (link 0x77 0 0 32), 34⟩ ∧
        ((skipping 0x77).elapse {}).link.state = .skip ∧ (link 0x77 0 0 32).kind ≠ 0x13#8) ∧
      (running.elapse {}).link.packet = none ∧ (running.elapse {}).link.state ≠ .down ∧ running.held = false := by
  decide +kernel

/-- The symbols, and what data comes to: the first and the last byte of a header, the last byte but one and the last of
a LINE and of a skip. -/
theorem test_witness_LinkFraming_symbols :
    let h := link 0x11 0 0 3
    let at' (st : LinkRxState) (n : Nat) (h : Option LinkHeader) (left : Nat) : State :=
      { running with link := { running.link with state := st, packet := some ⟨List.replicate n 0, h, left⟩ } }
    let taken (st : LinkRxState) (n : Nat) (h : Option LinkHeader) (left : Nat) : Prop :=
      (at' st n h left).held = false ∧ ((at' st n h left).elapse {}).link.state = st ∧
        ((at' st n h left).elapse {}).link.packet = some ⟨List.replicate n 0, h, left⟩
    takeSymbol 0b10#2 0xF0#8 = .startMarker ∧ takeSymbol 0b11#2 0x00#8 = .fill ∧
      takeSymbol 0b01#2 0x00#8 = .data 0x00#8 ∧ taken .header 0 none 0 ∧ taken .header 7 none 0 ∧
      taken .payload 3 (some h) 2 ∧ taken .payload 4 (some h) 1 ∧ taken .skip 0 (some h) 2 ∧
      taken .skip 0 (some h) 1 := by decide +kernel

/-- Two wrong bits; Length 8,193; an unassigned kind; a POLL with Length 4; a LINE with Length 0. -/
theorem test_witness_LinkHeaderErrors :
    let s := linkStarted running
    (s.held = false ∧ (s.elapse {}).link.packet = some ⟨[], none, 0⟩ ∧
      checkHeader ([] ++ [0, 0, 0, 0, 0, 0, 0, 3]) = .bad) ∧
    (LinkHeaderIn {} (linkBytes 0x11 0 0 8193) false (link 0x11 0 0 8193) s ∧
      8192 < (link 0x11 0 0 8193).length.toNat) ∧
    (LinkHeaderIn {} (linkBytes 0x77 0 0 8192) false (link 0x77 0 0 8192) s ∧
      (link 0x77 0 0 8192).length.toNat ≤ 8192 ∧ LinkKind.ofCode (link 0x77 0 0 8192).kind = none) ∧
    (LinkHeaderIn {} (linkBytes 0x20 1 64 4) false (link 0x20 1 64 4) s ∧
      LinkKind.ofCode (link 0x20 1 64 4).kind = some .poll ∧ LinkKind.poll ≠ .filler ∧
      (LinkKind.poll = .line ↔ (link 0x20 1 64 4).length = 0)) ∧
    (LinkHeaderIn {} (linkBytes 0x11 0 0 0) false (link 0x11 0 0 0) s ∧
      LinkKind.ofCode (link 0x11 0 0 0).kind = some .line ∧ LinkKind.line ≠ .filler ∧
      (LinkKind.line = .line ↔ (link 0x11 0 0 0).length = 0)) :=
  ⟨by decide +kernel, ⟨linkHeaderIn_started (by decide +kernel), by decide +kernel⟩,
    ⟨linkHeaderIn_started (by decide +kernel), by decide +kernel⟩,
    ⟨linkHeaderIn_started (by decide +kernel), by decide +kernel⟩, linkHeaderIn_started (by decide +kernel),
    by decide +kernel⟩

/-- FILLER of Length 0 and of Length 32, the end of its skip, a LINE header and a LINE whose CRC fails. -/
theorem test_witness_FillerLineAndSkip :
    (LinkHeaderIn {} (linkBytes 0x13 0 0 0) false (link 0x13 0 0 0) (linkStarted running) ∧
      LinkHeaderIn {} (linkBytes 0x13 0 0 32) false (link 0x13 0 0 32) (linkStarted running)) ∧
    (let s : State :=
      { running with link := { running.link with state := .skip, packet := some ⟨[], some (link 0x13 0 0 32), 1⟩ } };
      s.held = false ∧ (s.elapse {}).link.state = .skip ∧
        (s.elapse {}).link.packet = some ⟨[], some (link 0x13 0 0 32), 1⟩) ∧
    (LinkHeaderIn {} (linkBytes 0x11 0 0 192) false (link 0x11 0 0 192) (linkStarted running) ∧
      1 ≤ (link 0x11 0 0 192).length.toNat ∧ (link 0x11 0 0 192).length.toNat ≤ 8192) ∧
    (let h := link 0x11 0 0 3
      let s := linePayload h running;
      s.held = false ∧ (s.elapse {}).link.state = .payload ∧ (s.elapse {}).link.packet = some ⟨[], some h, 5⟩ ∧
        ([] ++ [1, 2, 3, 0, 0] : List Byte).length = h.length.toNat + 2 ∧
        crcGood h.length.toNat ([] ++ [1, 2, 3, 0, 0]) = false) :=
  ⟨⟨linkHeaderIn_started (by decide +kernel), linkHeaderIn_started (by decide +kernel)⟩, by decide +kernel,
    ⟨linkHeaderIn_started (by decide +kernel), by decide +kernel⟩, by decide +kernel⟩

/-- A station in CONFIG_FAULT. -/
def faulted : State :=
  linkStarted { configuring with loader := ⟨.configFault, List.replicate 24 0, none, some .imageCrc⟩ }

theorem test_witness_ConfigFaultDropsPackets :
    LinkHeaderIn {} (linkBytes 0x10 1 0 0) false (link 0x10 1 0 0) faulted ∧
      LinkHeaderIn {} (linkBytes 0x12 1 0 0) false (link 0x12 1 0 0) faulted ∧
      LinkHeaderIn {} (linkBytes 0x23 0 0 0) false (link 0x23 0 0 0) faulted ∧
      LinkHeaderIn {} (linkBytes 0x24 0 0 0) false (link 0x24 0 0 0) faulted ∧
      LineIn {} (withCrc [1, 2, 3]) (link 0x11 0 0 3) (withCrc [1, 2, 3]) (linePayload (link 0x11 0 0 3) faulted) ∧
      crcGood (link 0x11 0 0 3).length.toNat (withCrc [1, 2, 3]) = true ∧
      faulted.loader.station = .configFault :=
  ⟨linkHeaderIn_started (by decide +kernel), linkHeaderIn_started (by decide +kernel),
    linkHeaderIn_started (by decide +kernel), linkHeaderIn_started (by decide +kernel),
    lineIn_payload (by decide +kernel), by decide +kernel⟩

/-! ### Frames from the source -/

/-- A station that shows 99 and holds 100, with slot 2 as given. -/
def holding (r : Slot) : State :=
  linkStarted
    { running with
      slots := { slots0 with table := slots0.table.set 2 r },
      presentation := { running.presentation with shown := some 99 } }

/-- FRAME_BEGIN 99 is stale; 102 with every slot taken and 100 pinned is refused; 102 with a FREE slot is claimed, and so
is 103 while 102 is in progress. -/
theorem test_witness_FrameBeginClaims :
    let free := holding .freed
    let full : State :=
      { holding ⟨.closing, some 101, [], 2, false⟩ with
        presentation := { running.presentation with shown := some 99, decision := some ⟨5, 100⟩ } }
    let ready (n : Nat) (s : State) : Prop :=
      LinkHeaderIn {} (linkBytes 0x10 n 0 0) false (link 0x10 n 0 0) s ∧ (s.elapse {}).active = some cfg ∧
        ((s.elapse {}).ingest.state = .inFrame → (s.elapse {}).ingest.slot.isSome = true)
    let stale (n : FrameNo) (s : State) : Bool := (endedEarly (linkBase {} false s)).staleFrame n
    let claimed (n : FrameNo) (s : State) : Option (Nat × SlotManager) :=
      let b := endedEarly (linkBase {} false s)
      b.slots.claim n (b.presentation.decision.map Decision.frame)
    let inHand := linkStarted (filling 2)
    (ready 99 free ∧ stale 99 free = true) ∧ (ready 102 full ∧ stale 102 full = false ∧ claimed 102 full = none) ∧
    (ready 102 free ∧ stale 102 free = false ∧ (claimed 102 free).isSome = true) ∧
    (ready 103 inHand ∧ (inHand.elapse {}).ingest.state = .inFrame ∧ stale 103 inHand = false ∧
      (claimed 103 inHand).isSome = true) :=
  ⟨⟨⟨linkHeaderIn_started (by decide +kernel), by decide +kernel⟩, by decide +kernel⟩,
    ⟨⟨linkHeaderIn_started (by decide +kernel), by decide +kernel⟩, by decide +kernel⟩,
    ⟨⟨linkHeaderIn_started (by decide +kernel), by decide +kernel⟩, by decide +kernel⟩,
    ⟨linkHeaderIn_started (by decide +kernel), by decide +kernel⟩, by decide +kernel⟩

/-- The slot table of 1.10 after event 2. -/
def slots2 : SlotManager := { slots0 with table := slots0.table.set 2 ⟨.closing, some 101, [], 2, false⟩ }

/-- Slot 2 FREE; no slot FREE, and 100 is the one COMPLETE frame, pinned or not. -/
theorem test_witness_ClaimTakesLowestFreeSlot :
    slots0.table[2]? = some ⟨.free, none, [], 0, false⟩ ∧ (∀ q ∈ slots0.table.take 2, q.state ≠ .free) ∧
      (∀ r ∈ slots2.table, r.state ≠ .free) ∧ slots2.complete = [100] ∧
      slots2.table[1]? = some ⟨.complete, some 100, [], 0, false⟩ ∧
      (∀ q ∈ slots2.table.take 1, q.state ≠ .complete) := by decide +kernel

/-- That station under a configuration of W = 2, so that a whole line is short. -/
def narrow (queued : Nat) : State :=
  { filling queued with loader := { running.loader with settled := some { cfg with w := 2 } } }

/-- That station with this line open, these lines accounted for. -/
def opened (open' : Option OpenLine) (accounted : List Nat) (queued : Nat) : State :=
  { narrow queued with ingest := { (narrow queued).ingest with openLine := open', accounted := accounted } }

/-- A whole line of 2 pixels, with three places held, with four, while a line of another number is open, and as a
duplicate; a first segment of 1 pixel; and the second of a line that is open. -/
theorem test_witness_WholeLineIsQueued :
    let c : Settings := { cfg with w := 2 }
    let ready (h : LinkHeader) (body : List Byte) (s : State) : Prop :=
      LineIn {} body h body (linePayload h s) ∧ crcGood h.length.toNat body = true ∧
        ((linePayload h s).elapse {}).active = some c ∧
        ((linePayload h s).elapse {}).ingest.state = .inFrame ∧
        ((linePayload h s).elapse {}).ingest.slot = some 1 ∧ h.a.toNat < c.h ∧ h.b.toNat < c.w ∧
        h.length.toNat % c.format.groupBytes = 0 ∧ h.b.toNat % c.format.groupPixels = 0 ∧
        h.b.toNat + h.length.toNat / c.format.groupBytes * c.format.groupPixels ≤
          (c.w + c.format.groupPixels - 1) / c.format.groupPixels * c.format.groupPixels
    let base (h : LinkHeader) (s : State) : State := placedAt 1 h.a.toNat ((linePayload h s).elapse {})
    let opens (h : LinkHeader) (s : State) : Prop := (base h s).ingest.openLine = none ∧ h.b = 0
    let whole := link 0x11 1079 0 6
    let pixels := withCrc [1, 2, 3, 4, 5, 6]
    (ready whole pixels (narrow 3) ∧ opens whole (narrow 3) ∧ (writesHeld (base whole (narrow 3))).length < 4) ∧
    (ready whole pixels (narrow 4) ∧ opens whole (narrow 4) ∧ 4 ≤ (writesHeld (base whole (narrow 4))).length) ∧
    (let s := opened (some ⟨5, 1⟩) [] 0;
      ready whole pixels s ∧ opens whole s ∧ ((linePayload whole s).elapse {}).ingest.openLine = some ⟨5, 1⟩) ∧
    (let s := opened none [1079] 0; ready whole pixels s ∧ opens whole s ∧ 1079 ∈ (base whole s).ingest.accounted) ∧
    (let h := link 0x11 0 0 3
      let s := narrow 0; ready h (withCrc [1, 2, 3]) s ∧ opens h s ∧ h.b.toNat + 3 / 3 * 1 < c.w) ∧
    (let h := link 0x11 1079 1 3
      let s := opened (some ⟨1079, 1⟩) [] 0;
      ready h (withCrc [4, 5, 6]) s ∧ (base h s).ingest.openLine = some ⟨h.a.toNat, h.b.toNat⟩) :=
  ⟨⟨⟨lineIn_payload (by decide +kernel), by decide +kernel⟩, by decide +kernel⟩,
    ⟨⟨lineIn_payload (by decide +kernel), by decide +kernel⟩, by decide +kernel⟩,
    ⟨⟨lineIn_payload (by decide +kernel), by decide +kernel⟩, by decide +kernel⟩,
    ⟨⟨lineIn_payload (by decide +kernel), by decide +kernel⟩, by decide +kernel⟩,
    ⟨⟨lineIn_payload (by decide +kernel), by decide +kernel⟩, by decide +kernel⟩,
    ⟨lineIn_payload (by decide +kernel), by decide +kernel⟩, by decide +kernel⟩

/-- A LINE with no frame, in DISCARDING, of line 1,080, of pixel 64, of 2 bytes, and past pixel 63; one at pixel 1 with no
line open and with another line open, and one at pixel 2 of a line that goes on at 1. -/
theorem test_witness_LineErrors :
    let ready (h : LinkHeader) (body : List Byte) (s : State) : Prop :=
      LineIn {} body h body (linePayload h s) ∧ crcGood h.length.toNat body = true ∧
        ((linePayload h s).elapse {}).active = some cfg
    let with' (o : Option OpenLine) : State :=
      { filling 0 with ingest := { (filling 0).ingest with openLine := o } }
    let placed (h : LinkHeader) (o : Option OpenLine) : Option OpenLine :=
      (placedAt 1 h.a.toNat ((linePayload h (with' o)).elapse {})).ingest.openLine
    let body := withCrc [1, 2, 3]
    (ready (link 0x11 0 0 3) body running ∧ running.ingest.state = .noFrame) ∧
    ready (link 0x11 0 0 3) body { running with ingest := { running.ingest with state := .discarding } } ∧
    (ready (link 0x11 1080 0 3) body (filling 0) ∧ cfg.h ≤ (link 0x11 1080 0 3).a.toNat) ∧
    (ready (link 0x11 1079 64 3) body (filling 0) ∧ cfg.w ≤ (link 0x11 1079 64 3).b.toNat) ∧
    (ready (link 0x11 1079 63 2) (withCrc [1, 2]) (filling 0) ∧ (link 0x11 1079 63 2).a.toNat < cfg.h ∧
      (link 0x11 1079 63 2).b.toNat < cfg.w ∧ (link 0x11 1079 63 2).length.toNat % cfg.format.groupBytes ≠ 0) ∧
    (ready (link 0x11 1079 63 6) (withCrc [1, 2, 3, 4, 5, 6]) (filling 0) ∧ cfg.wholeGroups < 63 + 6 / 3 * 1) ∧
    (ready (link 0x11 5 1 3) body (with' none) ∧ placed (link 0x11 5 1 3) none = none ∧
      (link 0x11 5 1 3).b ≠ 0 ∧ 1 + 3 / 3 * 1 ≤ cfg.wholeGroups) ∧
    (ready (link 0x11 5 1 3) body (with' (some ⟨4, 1⟩)) ∧ placed (link 0x11 5 1 3) (some ⟨4, 1⟩) = none) ∧
    (ready (link 0x11 5 2 3) body (with' (some ⟨5, 1⟩)) ∧
      placed (link 0x11 5 2 3) (some ⟨5, 1⟩) = some ⟨5, 1⟩ ∧ (link 0x11 5 2 3).b.toNat ≠ 1) :=
  ⟨⟨⟨lineIn_payload (by decide +kernel), by decide +kernel⟩, by decide +kernel⟩,
    ⟨lineIn_payload (by decide +kernel), by decide +kernel⟩,
    ⟨⟨lineIn_payload (by decide +kernel), by decide +kernel⟩, by decide +kernel⟩,
    ⟨⟨lineIn_payload (by decide +kernel), by decide +kernel⟩, by decide +kernel⟩,
    ⟨⟨lineIn_payload (by decide +kernel), by decide +kernel⟩, by decide +kernel⟩,
    ⟨⟨lineIn_payload (by decide +kernel), by decide +kernel⟩, by decide +kernel⟩,
    ⟨⟨lineIn_payload (by decide +kernel), by decide +kernel⟩, by decide +kernel⟩,
    ⟨⟨lineIn_payload (by decide +kernel), by decide +kernel⟩, by decide +kernel⟩,
    ⟨lineIn_payload (by decide +kernel), by decide +kernel⟩, by decide +kernel⟩

/-- A station filling frame 102 in slot 1 with every line accounted for. -/
def accounted (pending : Nat) (damaged : Bool) : State :=
  linkStarted
    { filling 0 with
      slots := { slots0 with table := slots0.table.set 1 ⟨.filling, some 102, [], pending, damaged⟩, complete := [] },
      ingest := { (filling 0).ingest with accounted := List.range 1080 } }

/-- That station where 99 and 100 are COMPLETE in the other slots, so that 99 will be evicted. -/
def last : State :=
  { accounted 0 false with
    slots :=
      { slots0 with
        table := [⟨.complete, some 99, [], 0, false⟩, ⟨.filling, some 102, [], 0, false⟩,
          ⟨.complete, some 100, [], 0, false⟩],
        complete := [99, 100] } }

/-- What the statement says of the slots there: all but slot 1 are COMPLETE, and 99 is the oldest that is not pinned. -/
theorem last_evicts :
    (∀ (j : Nat) (q : Slot), j ≠ 1 → (linkBase {} false last).slots.table[j]? = some q → q.state = .complete) ∧
      OldestUnpinned ((linkBase {} false last).presentation.decision.map Decision.frame)
        { last.slots with
          table := last.slots.table.set 1 ⟨.complete, some 102, [], 0, false⟩, complete := [99, 100, 102],
          framesCompleted := 1 } 99 0 :=
  ⟨fun j q hj hq => ofTable (p := fun j q => j ≠ 1 → q.state = .complete) (by decide +kernel) j q hq hj,
    by decide +kernel, .inl (by decide +kernel), ⟨_, rfl, by decide +kernel⟩, fun _ _ h => absurd h (by omega)⟩

/-- The cases of FRAME_END 102, and FRAME_END 103: closing, damaged, with a line open, complete at once, with an eviction,
mismatched, and with no frame or in DISCARDING. -/
theorem test_witness_FrameEndCloses :
    let ready (n : Nat) (s : State) : Prop :=
      LinkHeaderIn {} (linkBytes 0x12 n 0 0) false (link 0x12 n 0 0) s ∧ (s.elapse {}).active = some cfg
    let filled (s : State) (r : Slot) : Prop :=
      (linkBase {} false s).ingest.state = .inFrame ∧ (linkBase {} false s).ingest.frame = some 102 ∧
        (linkBase {} false s).ingest.slot = some 1 ∧ (linkBase {} false s).slots.table[1]? = some r ∧
        (linkBase {} false s).ingest.accounted = List.range cfg.h
    let idle := linkStarted running
    let discards : State :=
      linkStarted { running with ingest := { running.ingest with state := .discarding, frame := some 102 } }
    let cut : State :=
      { accounted 2 false with ingest := { (accounted 2 false).ingest with openLine := some ⟨5, 1⟩ } }
    (ready 102 (accounted 2 false) ∧ filled (accounted 2 false) ⟨.filling, some 102, [], 2, false⟩ ∧
      (linkBase {} false (accounted 2 false)).ingest.openLine = none) ∧
    (ready 102 (accounted 2 true) ∧ filled (accounted 2 true) ⟨.filling, some 102, [], 2, true⟩) ∧
    (ready 102 cut ∧ filled cut ⟨.filling, some 102, [], 2, false⟩) ∧
    (ready 102 (accounted 0 false) ∧ filled (accounted 0 false) ⟨.filling, some 102, [], 0, false⟩ ∧
      (linkBase {} false (accounted 0 false)).slots.table[0]? = some ⟨.shown, some 99, [], 0, false⟩) ∧
    (ready 102 last ∧ filled last ⟨.filling, some 102, [], 0, false⟩) ∧
    (ready 103 (accounted 2 false) ∧ (linkBase {} false (accounted 2 false)).ingest.frame = some 102) ∧
    (ready 102 idle ∧ (linkBase {} false idle).ingest.state = .noFrame) ∧
    (ready 102 discards ∧ (linkBase {} false discards).ingest.frame = some 102) ∧ ready 103 discards :=
  ⟨⟨⟨linkHeaderIn_started (by decide +kernel), by decide +kernel⟩, by decide +kernel⟩,
    ⟨⟨linkHeaderIn_started (by decide +kernel), by decide +kernel⟩, by decide +kernel⟩,
    ⟨⟨linkHeaderIn_started (by decide +kernel), by decide +kernel⟩, by decide +kernel⟩,
    ⟨⟨linkHeaderIn_started (by decide +kernel), by decide +kernel⟩, by decide +kernel⟩,
    ⟨⟨linkHeaderIn_started (by decide +kernel), by decide +kernel⟩, by decide +kernel⟩,
    ⟨⟨linkHeaderIn_started (by decide +kernel), by decide +kernel⟩, by decide +kernel⟩,
    ⟨⟨linkHeaderIn_started (by decide +kernel), by decide +kernel⟩, by decide +kernel⟩,
    ⟨⟨linkHeaderIn_started (by decide +kernel), by decide +kernel⟩, by decide +kernel⟩,
    linkHeaderIn_started (by decide +kernel), by decide +kernel⟩

/-! ### Reports and commands of the source -/

/-- A report in transmission. -/
def someReport : Report :=
  { kind := .ident, truncated := false, unavailable := false, nextIndex := none, payload := [0, 0] }

/-- A station that sends a report, with these POLLs waiting. -/
def reporting (queue : List Poll) : State :=
  linkStarted { running with report := { running.report with sending := some someReport, queue := queue } }

/-- A POLL with max return 15, with 1,025 and of kind 9; good ones with 16 and 1,024 on an IDLE return lane, with one
POLL waiting and with two. -/
theorem test_witness_PollIsTaken :
    let idle := linkStarted running
    let p : Poll := ⟨.ident, 0, 64⟩
    (LinkHeaderIn {} (linkBytes 0x20 1 15 0) false (link 0x20 1 15 0) idle ∧ (link 0x20 1 15 0).b.toNat < 16) ∧
    (LinkHeaderIn {} (linkBytes 0x20 1 1025 0) false (link 0x20 1 1025 0) idle ∧
      1024 < (link 0x20 1 1025 0).b.toNat) ∧
    (LinkHeaderIn {} (linkBytes 0x20 9 64 0) false (link 0x20 9 64 0) idle ∧
      ReportKind.ofCode ((link 0x20 9 64 0).a.extractLsb' 0 8) = none) ∧
    (LinkHeaderIn {} (linkBytes 0x20 1 16 0) false (link 0x20 1 16 0) idle ∧
      ReportKind.ofCode ((link 0x20 1 16 0).a.extractLsb' 0 8) = some .ident ∧ 16 ≤ (link 0x20 1 16 0).b.toNat ∧
      (linkBase {} false idle).report.sending = none ∧ (linkBase {} false idle).report.queue = []) ∧
    (LinkHeaderIn {} (linkBytes 0x20 8 1024 0) false (link 0x20 8 1024 0) (reporting [p]) ∧
      ReportKind.ofCode ((link 0x20 8 1024 0).a.extractLsb' 0 8) = some .ring ∧
      (link 0x20 8 1024 0).b.toNat ≤ 1024 ∧ (linkBase {} false (reporting [p])).report.sending ≠ none ∧
      (linkBase {} false (reporting [p])).report.queue.length < 2) ∧
    (LinkHeaderIn {} (linkBytes 0x20 1 64 0) false (link 0x20 1 64 0) (reporting [p, p]) ∧
      2 ≤ (linkBase {} false (reporting [p, p])).report.queue.length) :=
  ⟨⟨linkHeaderIn_started (by decide +kernel), by decide +kernel⟩,
    ⟨linkHeaderIn_started (by decide +kernel), by decide +kernel⟩,
    ⟨linkHeaderIn_started (by decide +kernel), by decide +kernel⟩,
    ⟨linkHeaderIn_started (by decide +kernel), by decide +kernel⟩,
    ⟨linkHeaderIn_started (by decide +kernel), by decide +kernel⟩, linkHeaderIn_started (by decide +kernel),
    by decide +kernel⟩

theorem test_witness_ReportCompletes :
    let p : Poll := ⟨.ident, 0, 64⟩
    ((reporting []).held = false ∧ ((reporting []).elapse {}).report.sending = some someReport ∧
      ((reporting []).elapse {}).report.queue = []) ∧
      ((reporting [p]).elapse {}).report.sending = some someReport ∧
      ((reporting [p]).elapse {}).report.queue = p :: [] := by decide +kernel

/-- What `ReportFor` asks of the states in which a report begins: in CONFIG_FAULT a POLL of SLOTS and one of IDENT; while
RUNNING one of ROSTER, whose table meets its laws. -/
theorem test_witness_ReportFor :
    let asks (kind : ReportKind) (s : State) : Prop :=
      s.loader.station = .configFault ∧ kind ≠ .ident ∧ kind ≠ .link
    asks .slots faulted ∧ ¬ asks .ident faulted ∧ ¬ asks .roster origin ∧ RosterLaw origin ∧
      16 ≤ (⟨.roster, 0, 64⟩ : Poll).max := by
  unfold RosterLaw
  decide +kernel

/-- The report of an image that fails its CRC: the cause, no failing field, and the image as read (R189). -/
theorem test_report_of_fault :
    let s : State := { faulted with loader := ⟨.configFault, [7, 8], none, some .imageCrc⟩ }
    identItems s = [[0x06, 0x41], [1], [1], [0], [0], [7, 8]] ∧
      (s.reportOf ⟨.ident, 0, 64⟩).payload.drop 2 = [0x06, 0x41, 1, 1, 0, 0, 7, 8] ∧
      (s.reportOf ⟨.ring, 0, 64⟩).unavailable = true ∧ (s.reportOf ⟨.ring, 0, 64⟩).payload = [0, 0] := by
  decide +kernel

/-- A ROSTER report's entries: the own one at address 4 before the one at address 9 (13.6). -/
theorem test_report_of_roster :
    entryItems origin =
      [(4, [4, 0x4B, 0, 0, 0, 0, 0, 0, 0, 0]), (9, [9, 0x27, 0x11, 0, 40, 0, 7, 20, 0, 1, 0, 41])] := by
  decide +kernel

/-- Room for one entry of two: the second is the one left out; and for no field. -/
theorem test_witness_ReportsAreCutAtWholeEntries :
    2 + [(0 : Byte)].length ≤ (⟨.slots, 0, 16⟩ : Poll).max ∧
      ([(0, List.replicate 6 0), (1, List.replicate 8 0)] : List (Nat × List Byte))[1]? =
        some (1, List.replicate 8 0) ∧
      16 < (pageReport ⟨.slots, 0, 16⟩ 0 [0] [(0, List.replicate 6 0), (1, List.replicate 8 0)]).payload.length + 8 ∧
      (2 : Nat) ≤ 2 ∧ ([[1, 2]] : List (List Byte))[0]? = some [1, 2] := by decide +kernel

theorem test_witness_ClearZeroesSelectedGroups :
    LinkHeaderIn {} (linkBytes 0x21 0x3F 0 0) false (link 0x21 0x3F 0 0) (linkStarted running) ∧
      (link 0x21 0x3F 0 0).kind = 0x21#8 ∧ (link 0x21 0x3F 0 0).length = 0 :=
  ⟨linkHeaderIn_started (by decide +kernel), by decide +kernel⟩

theorem test_witness_LinkResetClearsSourceSide :
    LinkHeaderIn {} (linkBytes 0x22 0 0 0) false (link 0x22 0 0 0) (linkStarted (filling 2)) ∧
      (link 0x22 0 0 0).kind = 0x22#8 ∧
      (linkBase {} false (linkStarted (filling 2))).slots.table[1]? = some ⟨.filling, some 102, [], 2, false⟩ :=
  ⟨linkHeaderIn_started (by decide +kernel), by decide +kernel⟩

/-- A busy RING OUT, an IDLE one with nothing waiting and with a packet waiting, at a LISTENING station; an ORIGIN with a
BEAT and a STANDING waiting behind a busy one. -/
theorem test_witness_WithdrawEntersStandby :
    let ready (s : State) : Prop :=
      LinkHeaderIn {} (linkBytes 0x23 0 0 0) false (link 0x23 0 0 0) (linkStarted s) ∧
        (linkStarted s).loader.station = .running ∧ (linkStarted s).loader.settled = some cfg
    let idle : State :=
      { running with
        ringOut := { running.ringOut with queue := [⟨ring 2 1 9 1 14, List.replicate 16 0, 140⟩], occupancy := 24 } }
    let waits : State :=
      { origin with ringOut := { origin.ringOut with beat := some (spokenBeat 1666000), standing := true } }
    (ready busy ∧ busy.ringOut.sending ≠ none ∧ busy.role.role ≠ .origin) ∧
      (ready running ∧ running.ringOut.sending = none ∧ running.ringOut.queue = []) ∧
      (ready idle ∧ idle.ringOut.sending = none ∧ idle.ringOut.queue ≠ []) ∧
      ready waits ∧ waits.role.role = .origin ∧ waits.ringOut.sending ≠ none :=
  ⟨⟨⟨linkHeaderIn_started (by decide +kernel), by decide +kernel⟩, by decide +kernel⟩,
    ⟨⟨linkHeaderIn_started (by decide +kernel), by decide +kernel⟩, by decide +kernel⟩,
    ⟨⟨linkHeaderIn_started (by decide +kernel), by decide +kernel⟩, by decide +kernel⟩,
    ⟨linkHeaderIn_started (by decide +kernel), by decide +kernel⟩, by decide +kernel⟩

theorem test_witness_RejoinReturnsToListening :
    let away : State := linkStarted { running with loader := { running.loader with station := .withdrawn } }
    (LinkHeaderIn {} (linkBytes 0x24 0 0 0) false (link 0x24 0 0 0) away ∧ away.loader.station = .withdrawn ∧
      away.loader.settled = some cfg) ∧
    LinkHeaderIn {} (linkBytes 0x23 0 0 0) false (link 0x23 0 0 0) away ∧
    (LinkHeaderIn {} (linkBytes 0x24 0 0 0) false (link 0x24 0 0 0) (linkStarted running) ∧
      (linkStarted running).loader.station = .running) :=
  ⟨⟨linkHeaderIn_started (by decide +kernel), by decide +kernel⟩, linkHeaderIn_started (by decide +kernel),
    linkHeaderIn_started (by decide +kernel), by decide +kernel⟩

/-! ### Encodings -/

/-- Syndromes of weight 3, 2 and 8; a departing packet; a report. -/
theorem test_witness_HeaderCheckCode :
    (List.range 8).countP ((0xE0 : Byte).getLsbD ·) = 3 ∧ (List.range 8).countP ((0x03 : Byte).getLsbD ·) = 2 ∧
      4 ≤ (List.range 8).countP ((0xFF : Byte).getLsbD ·) ∧
      (State.departForwarded ⟨ring 2 1 9 1 14, [], 140⟩ [] running).ringOut.sending.isSome = true ∧
      (State.departOwn cfg .leave leavePayload 0 running).ringOut.sending.isSome = true := by decide +kernel

theorem test_witness_PacketRoundTrip :
    let x : Standing := { spoken with list := [65534, 65535, 1] }
    (x.list.length ≤ 3 ∧ ascending x.list = true ∧ spoken.list.length ≤ 3 ∧ ascending spoken.list = true) ∧
      (parseStanding x.payload = some x ∧ parseStanding (spoken.payload ++ [0]) = none ∧
        parseStanding (spoken.payload.set 0 0x2D) = none ∧ parseStanding (spoken.payload.set 0 0xD1) = none ∧
        parseStanding (spoken.payload.set 1 4) = none ∧
        parseStanding ({ spoken with list := [1, 2, 3, 4] } : Standing).payload = none ∧
        parseStanding ({ spoken with list := [2, 2] } : Standing).payload = none) ∧
      (busy.ringOut.sending.isSome = true ∧ running.ringOut.sending = none) ∧
      (({ running.report with sending := some someReport } : ReportUnit).sending = some someReport ∧
        running.report.sending = none ∧ someReport.payload.length < 16384) := by
  decide +kernel

theorem test_witness_PixelComponents :
    (List.replicate 30 (0 : Byte)).length % PixelFormat.p30.groupBytes = 0 ∧
      (List.replicate 30 (0 : Byte)).length % PixelFormat.p16.groupBytes = 0 ∧
      0xF8#8 ++ 0x1F#8 = 31#5 ++ 0#6 ++ 31#5 ∧ 0xA3#8 ++ 0xF1#8 ++ 0x23#8 = 0xA#4 ++ 3#4 ++ 0xF#4 ++ 1#4 ++ 2#4 ++ 3#4 := by
  decide +kernel

/-! ### Laws: a state that meets each, with a command to take -/

/-- A state with one command waiting. -/
def waiting (s : State) : State := s.setPending [.ringTransmissionComplete {}]

theorem test_witness_laws_step :
    (after id (step (waiting origin))).isSome = true ∧ (after id (step (waiting (holding .freed)))).isSome = true ∧
      (after id (step (waiting configuring))).isSome = true := by decide +kernel

theorem test_witness_EveryStepKeepsMemoryForm :
    Memory.wf ({ waiting origin with mem := [(6, 1), (33554431, 3)] } : State).mem := by decide +kernel

theorem test_witness_EveryStepKeepsOriginLaw : OriginLaw (waiting origin) ∧ (waiting origin).role.role = .origin :=
  ⟨ofSettled (p := fun c => (waiting origin).role.role = .origin → (waiting origin).timing.lock = .reference ∧
      ∀ x ∈ (waiting origin).roster.entries, x.member = true → x.said.capable = true →
        c.address.toNat ≤ x.address.toNat) (by decide +kernel) (by decide +kernel), by decide +kernel⟩

theorem test_witness_EveryStepKeepsRosterLaw : RosterLaw (waiting origin) := by
  unfold RosterLaw
  decide +kernel

theorem test_witness_EveryStepKeepsOccupancyLaw :
    let p : RingPacket := ⟨ring 2 1 9 1 14, List.replicate 16 0, 140⟩
    let s : State :=
      waiting { origin with ringOut := { origin.ringOut with queue := [p], occupancy := 24 } }
    OccupancyLaw s := by
  refine ⟨by decide +kernel, by decide +kernel, fun p hp => ?_⟩
  cases hp

theorem test_witness_EveryStepKeepsQuietLaw : QuietLaw (waiting configuring) ∧ (waiting configuring).active = none :=
  ⟨fun _ => by decide +kernel, by decide +kernel⟩

/-- The station that shows 99 and holds 100, and whose slot 2 is FREE. -/
def shows99 : State := waiting (holding .freed)

/-- The row of each slot of that station. -/
theorem shows99_rows (i : Nat) (r : Slot) (h : shows99.slots.table[i]? = some r) :
    (i = 0 ∧ r = ⟨.shown, some 99, [], 0, false⟩) ∨ (i = 1 ∧ r = ⟨.complete, some 100, [], 0, false⟩) ∨
      (i = 2 ∧ r = .freed) :=
  ofTable (p := fun i r => (i = 0 ∧ r = ⟨.shown, some 99, [], 0, false⟩) ∨
    (i = 1 ∧ r = ⟨.complete, some 100, [], 0, false⟩) ∨ (i = 2 ∧ r = .freed)) (by decide +kernel) i r h

/-- No slot of it receives a frame. -/
theorem shows99_receives (r : Slot) (i : Nat) (h : shows99.slots.table[i]? = some r) : ¬ receivesFrame r := by
  rcases shows99_rows i r h with ⟨-, rfl⟩ | ⟨-, rfl⟩ | ⟨-, rfl⟩ <;> simp [receivesFrame, Slot.freed]

theorem shows99_slotLaw : SlotLaw shows99 := by
  refine ⟨ofTable (p := fun _ r => r.state = .free ↔ r.frame = none) (by decide +kernel), ?_, by decide +kernel, ?_,
    ofTable (p := fun _ r => r.state = .shown → r.frame = some 99) (by decide +kernel),
    ofTable (p := fun i r => r.state = .filling ↔ (none : Option Nat) = some i) (by decide +kernel),
    fun i (hi : (none : Option Nat) = some i) => (nomatch hi), by decide +kernel, by decide +kernel, by decide +kernel,
    ofSettled (p := fun c => shows99.slots.complete.length ≤ c.slotCount - 1) (by decide +kernel) (by decide +kernel),
    ?_, ?_⟩
  · intro i j r q ne hi hj hr hq same
    rcases shows99_rows i r hi with ⟨rfl, rfl⟩ | ⟨rfl, rfl⟩ | ⟨rfl, rfl⟩ <;>
      rcases shows99_rows j q hj with ⟨rfl, rfl⟩ | ⟨rfl, rfl⟩ | ⟨rfl, rfl⟩ <;> simp_all [holdsFrame, Slot.freed]
  · intro f
    have held : shows99.slots.complete = [100] := by decide +kernel
    rw [held]
    constructor
    · intro hf
      exact ⟨1, ⟨.complete, some 100, [], 0, false⟩, by decide +kernel, rfl, by rw [List.mem_singleton.1 hf]⟩
    · rintro ⟨i, r, hi, hs, hf⟩
      rcases shows99_rows i r hi with ⟨-, rfl⟩ | ⟨-, rfl⟩ | ⟨-, rfl⟩ <;> simp_all [Slot.freed]
  · intro f hf r hr k
    have : f = 99 := by
      have shown : shows99.presentation.shown = some 99 := by decide +kernel
      rw [shown] at hf
      exact (Option.some.inj hf).symm
    subst this
    obtain ⟨i, hi⟩ := List.mem_iff_getElem?.1 hr
    rcases k with k | k
    · exact absurd k (shows99_receives r i hi)
    · rcases shows99_rows i r hi with ⟨-, rfl⟩ | ⟨-, rfl⟩ | ⟨-, rfl⟩
      · exact absurd k (by decide)
      · exact ⟨100, rfl, by decide⟩
      · exact absurd k (by decide)
  · intro r hr q hq
    obtain ⟨i, hi⟩ := List.mem_iff_getElem?.1 hr
    obtain ⟨j, hj⟩ := List.mem_iff_getElem?.1 hq
    exact ⟨fun _ k => absurd k (shows99_receives q j hj), fun k => absurd (.inr k) (shows99_receives r i hi)⟩

theorem shows99_writeLaw : WriteLaw shows99 := by
  have no_writes : writesHeld shows99 = [] := by decide +kernel
  refine ⟨ofSettled (p := fun c => 1 ≤ c.h ∧ 3 ≤ c.slotCount ∧ c.slotCount ≤ 4 ∧
      shows99.slots.table.length = c.slotCount) (by decide +kernel) (by decide +kernel),
    fun i r h k => absurd k (shows99_receives r i h), ?_, ?_, ?_, ?_,
    fun i r h k => absurd k (shows99_receives r i h)⟩
  · exact fun w (hw : w ∈ ([] : List LineWrite)) => (nomatch hw)
  · exact fun w (hw : (none : Option Transfer) = some (.write w)) => (nomatch hw)
  · rw [no_writes]
    exact .nil
  · exact fun i r (hi : (none : Option Nat) = some i) => (nomatch hi)

theorem test_witness_EveryStepKeepsSlotLaw : SlotLaw shows99 ∧ WriteLaw shows99 ∧ QuietLaw shows99 :=
  ⟨shows99_slotLaw, shows99_writeLaw, fun h => absurd h (by decide +kernel)⟩

/-- RING OUT busy and IDLE. -/
theorem test_witness_EveryStepKeepsListLimits :
    let meets (s : State) : Prop := s.ringOut.outstanding.length ≤ 8 ∧ s.placesHeld ≤ 4 ∧ IdleLaw s ∧ QuietLaw s
    meets (waiting origin) ∧ meets (waiting running) ∧ (waiting (filling 4)).placesHeld ≤ 4 := by
  unfold IdleLaw
  exact ⟨⟨by decide +kernel, by decide +kernel, by decide +kernel, fun h => absurd h (by decide +kernel)⟩,
    ⟨by decide +kernel, by decide +kernel, by decide +kernel, fun h => absurd h (by decide +kernel)⟩, by decide +kernel⟩

theorem test_witness_ShownFrameOnlyGoesForward :
    (waiting (holding .freed)).presentation.shown = some 99 := by decide +kernel

end Sys2Proof.Tests
end

/-! ### Source link headers that are refused (R135 to R138) -/

namespace Sys2Proof

open Sys2Proof.Machine

variable {rest : List Byte} {h : LinkHeader} {s : State}

/-! #### The kind codes (13.5) -/

/-- An association list is searched from its front. -/
theorem lookup_cons_eq_ite {α β : Type} [DecidableEq α] (a k : α) (v : β) (l : List (α × β)) :
    ((k, v) :: l).lookup a = if a = k then some v else l.lookup a := by
  rw [List.lookup_cons]
  by_cases hk : a = k
  · rw [if_pos hk, beq_iff_eq.mpr hk]
  · rw [if_neg hk, beq_eq_false_iff_ne.mpr hk]

theorem linkKind_ofCode_eq_lookup (code : Byte) : LinkKind.ofCode code =
    ([(0x10#8, .frameBegin), (0x11#8, .line), (0x12#8, .frameEnd), (0x13#8, .filler), (0x20#8, .poll), (0x21#8, .clear),
      (0x22#8, .linkReset), (0x23#8, .withdraw), (0x24#8, .rejoin)] : List (Byte × LinkKind)).lookup code := by
  simp only [lookup_cons_eq_ite, List.lookup_nil]
  rfl

/-! #### Which headers are refused -/

/-- R136 comes first: whatever the kind. -/
theorem linkFate_of_tooLong (long : 8192 < h.length.toNat) : linkFate h = .tooLong :=
  if_pos long

theorem linkFate_of_unknown (short : h.length.toNat ≤ 8192) (unlisted : LinkKind.ofCode h.kind = none) :
    linkFate h = .unknown := by
  simp [linkFate, Config.maxLinkLength, short.not_gt, unlisted]

/-- A LINE takes no Length 0, and the other kinds but FILLER take only Length 0 (R138). -/
theorem linkFate_of_wrongLength {k : LinkKind} (short : h.length.toNat ≤ 8192)
    (listed : LinkKind.ofCode h.kind = some k) (not_filler : k ≠ .filler) (wrong : k = .line ↔ h.length = 0) :
    linkFate h = .wrongLength := by
  have within : ¬ Config.maxLinkLength < h.length.toNat := short.not_gt
  cases k
  case filler => exact absurd rfl not_filler
  case line => simp [linkFate, listed, wrong.mp rfl]
  all_goals
    have payload : h.length ≠ 0 := fun empty => nomatch wrong.mpr empty
    simp only [linkFate, within, listed, payload, if_false]

/-! #### What the receiver does with them -/

/-- A count of an error changes the receiver and raises notice 5, LINK_ERROR (R142, 13.6). -/
theorem linkError_eq (r : LinkReceiver) :
    s.linkError r = { s with link := r, notices := s.notices ||| 0x0020#16 } := rfl

/-- An uncorrectable header (R135). -/
theorem linkEighthByte_of_bad {p : LinkRxPacket} (hp : s.link.packet = some p) (collecting : p.header = none)
    (eight : (p.taken ++ rest).length = 8) (bad : checkHeader (p.taken ++ rest) = .bad) :
    s.linkEighthByte rest = s.linkError { s.link.leave .hunt with hdrBad := bump s.link.hdrBad } := by
  simp only [State.linkEighthByte, hp, collecting, eight, if_true, State.linkHeaderCheck, bad]

/-- A Length above 8,192 (R136): the payload is not skipped. -/
theorem linkHeaderGood_of_tooLong (fate : linkFate h = .tooLong) :
    s.linkHeaderGood h = s.linkError { s.link.leave .hunt with lengthBad := bump s.link.lengthBad } := by
  simp only [State.linkHeaderGood, fate]

theorem linkHeaderGood_of_unknown (fate : linkFate h = .unknown) :
    s.linkHeaderGood h = s.linkError { s.link.skip h with unknownKind := bump s.link.unknownKind } := by
  simp only [State.linkHeaderGood, fate]

theorem linkHeaderGood_of_wrongLength (fate : linkFate h = .wrongLength) :
    s.linkHeaderGood h = s.linkError { s.link.skip h with lengthBad := bump s.link.lengthBad } := by
  simp only [State.linkHeaderGood, fate]

/-- Settles O33: each header comes to its fate by the order of the checks of R135 to R138, and each fate is one count
with LINK_ERROR. -/
theorem linkHeaderErrors : Obligations.LinkHeaderErrors := by
  unfold Obligations.LinkHeaderErrors
  refine ⟨linkKind_ofCode_eq_lookup, fun e rest p s free hp collecting eight bad => ?_,
    fun e rest fixed h s hh => ?_⟩
  · rw [exec_linkHdrBad free, linkEighthByte_of_bad hp collecting eight bad, linkError_eq]
    rfl
  · have free : s.held = false := hh.1
    refine ⟨fun long => ?_, fun short unlisted => ?_, fun short ⟨k, listed, not_filler, wrong⟩ => ?_⟩
    · rw [exec_linkLengthBad free, linkEighthByte_of_headerIn hh,
        linkHeaderGood_of_tooLong (linkFate_of_tooLong long), linkError_eq]
      rfl
    · rw [exec_unknownKind free, linkEighthByte_of_headerIn hh,
        linkHeaderGood_of_unknown (linkFate_of_unknown short unlisted), linkError_eq]
      rfl
    · rw [exec_linkLengthBad free, linkEighthByte_of_headerIn hh,
        linkHeaderGood_of_wrongLength (linkFate_of_wrongLength short listed not_filler wrong), linkError_eq]
      rfl

end Sys2Proof

/-! ### The header check code (13.2, R191) -/

namespace Sys2Proof

open Sys2Proof.Machine

variable {b : HeaderBits} {x : Byte} {i j : Nat}

/-! #### The 7 data bytes -/

theorem packHeader_unpackHeader_append (b : HeaderBits) (bytes : List Byte) :
    packHeader (unpackHeader b ++ bytes) = b := by
  change b.extractLsb' 48 8 ++ b.extractLsb' 40 8 ++ b.extractLsb' 32 8 ++ b.extractLsb' 24 8 ++ b.extractLsb' 16 8 ++
    b.extractLsb' 8 8 ++ b.extractLsb' 0 8 = b
  iterate 6 rw [BitVec.extractLsb'_append_extractLsb'_eq_extractLsb' (by rfl)]
  exact BitVec.extractLsb'_eq_self

/-- What comes of 8 received bytes depends on the 7 data bytes and on the syndrome. -/
theorem checkHeader_unpackHeader_append (b : HeaderBits) (x : Byte) :
    checkHeader (unpackHeader b ++ [x]) = checkSyndrome b (checkByte b ^^^ x) := by
  rw [checkHeader, packHeader_unpackHeader_append]
  rfl

theorem take_protectHeader_append (b : HeaderBits) (bytes : List Byte) :
    (protectHeader b ++ bytes).take 8 = protectHeader b :=
  List.take_left' rfl

/-! #### The check byte is linear in the header bits -/

theorem checkFrom_xor (a b : HeaderBits) (i : Nat) (columns : List Byte) :
    checkFrom (a ^^^ b) i columns = checkFrom a i columns ^^^ checkFrom b i columns := by
  induction columns generalizing i with
  | nil => exact (BitVec.xor_self (x := (0 : Byte))).symm
  | cons c columns ih =>
    have taken (p q : Bool) : (if p ^^ q then c else 0) = (if p then c else 0) ^^^ (if q then c else 0) := by
      cases p <;> cases q <;> simp
    rw [checkFrom, checkFrom, checkFrom, ih, BitVec.getLsbD_xor, taken]
    ac_rfl

theorem checkFrom_twoPow_of_lt {k : Nat} (columns : List Byte) (passed : k < i) :
    checkFrom (BitVec.twoPow 56 k) i columns = 0 := by
  induction columns generalizing i with
  | nil => rfl
  | cons c columns ih => simp [checkFrom, ih (by omega : k < i + 1), passed.ne]

/-- A single header bit gives its column; `n` is its place counted from bit `i`. -/
theorem checkFrom_twoPow (n : Nat) (columns : List Byte) (header : i + n < 56) :
    checkFrom (BitVec.twoPow 56 (i + n)) i columns = columns.getD n 0 := by
  induction columns generalizing i n with
  | nil => rfl
  | cons c columns ih =>
    cases n with
    | zero =>
      have own : (BitVec.twoPow 56 i).getLsbD i = true := by simpa using header
      rw [Nat.add_zero, checkFrom, own, checkFrom_twoPow_of_lt columns (Nat.lt_succ_self i)]
      exact BitVec.xor_zero
    | succ n =>
      have later : (BitVec.twoPow 56 (i + (n + 1))).getLsbD i = false := by simp
      have next : i + (n + 1) = i + 1 + n := by omega
      rw [checkFrom, later, next, ih n (by omega)]
      exact BitVec.zero_xor

theorem checkByte_xor_twoPow (b : HeaderBits) (hi : i < 56) :
    checkByte (b ^^^ BitVec.twoPow 56 i) = checkByte b ^^^ headerColumns.getD i 0 := by
  have column := checkFrom_twoPow (i := 0) i headerColumns (by omega)
  rw [Nat.zero_add] at column
  rw [checkByte, checkFrom_xor, column, checkByte]

/-- One bit of the exclusive-or of the columns from `i` on, added up from the first column on. -/
theorem getLsbD_checkFrom_drop (b : HeaderBits) (j n i : Nat) (columns : List Byte) (hn : i + n = columns.length)
    (start : Bool) :
    (List.range' i n).foldl (fun x k => x ^^ (b.getLsbD k && (columns.getD k 0).getLsbD j)) start =
      (start ^^ (checkFrom b i (columns.drop i)).getLsbD j) := by
  induction n generalizing i start with
  | zero =>
    rw [List.drop_of_length_le (by omega : columns.length ≤ i)]
    simp [checkFrom]
  | succ n ih =>
    have hi : i < columns.length := by omega
    rw [List.range'_succ, List.foldl_cons, ih (i + 1) (by omega), List.drop_eq_getElem_cons hi, checkFrom,
      List.getD_eq_getElem _ _ hi, BitVec.getLsbD_xor]
    cases b.getLsbD i <;> simp

theorem getLsbD_checkByte (b : HeaderBits) (j : Nat) : (checkByte b).getLsbD j =
    (List.range 56).foldl (fun x i => x ^^ (b.getLsbD i && (headerColumns.getD i 0).getLsbD j)) false := by
  rw [List.range_eq_range', getLsbD_checkFrom_drop b j 56 0 headerColumns rfl, Bool.false_xor, List.drop_zero, checkByte]

/-! #### The syndromes by weight -/

/-- How many bits of a byte are set. -/
def byteWeight (x : Byte) : Nat := (List.range 8).countP (x.getLsbD ·)

/-- The bytes of a weight, in ascending order. -/
def bytesOfWeight (n : Nat) : List Byte :=
  ((List.range 256).map (BitVec.ofNat 8)).filter (fun x : Byte => decide (byteWeight x = n))

theorem mem_bytesOfWeight {n : Nat} : x ∈ bytesOfWeight n ↔ byteWeight x = n := by
  have listed : x ∈ (List.range 256).map (BitVec.ofNat 8) :=
    List.mem_map.mpr ⟨x.toNat, List.mem_range.mpr x.isLt, (BitVec.ofNat_toNat 8 x).trans x.setWidth_eq⟩
  simp only [bytesOfWeight, List.mem_filter, listed, true_and, decide_eq_true_eq]

theorem headerColumns_eq : headerColumns = bytesOfWeight 3 := by decide +kernel

theorem checkByteHits_eq : checkByteHits = bytesOfWeight 1 := by decide +kernel

theorem mem_headerColumns : x ∈ headerColumns ↔ byteWeight x = 3 := by rw [headerColumns_eq, mem_bytesOfWeight]

theorem mem_checkByteHits : x ∈ checkByteHits ↔ byteWeight x = 1 := by rw [checkByteHits_eq, mem_bytesOfWeight]

theorem ne_zero_of_byteWeight_pos (hx : 0 < byteWeight x) : x ≠ 0 := by
  rintro rfl
  exact absurd hx (by decide)

theorem byteWeight_twoPow (hj : j < 8) : byteWeight (BitVec.twoPow 8 j) = 1 := by
  revert j
  decide

theorem nodup_headerColumns : headerColumns.Nodup := by decide

/-! #### The decoding of the syndrome -/

theorem checkSyndrome_zero (b : HeaderBits) : checkSyndrome b 0 = .good b := rfl

theorem checkSyndrome_of_weight_one (hx : byteWeight x = 1) : checkSyndrome b x = .corrected b := by
  have nonzero : x ≠ 0 := ne_zero_of_byteWeight_pos (by omega)
  rw [checkSyndrome, if_neg nonzero, if_pos (List.contains_iff_mem.mpr (mem_checkByteHits.mpr hx))]

/-- Beyond weight 1 the syndrome is looked up among the columns. -/
theorem checkSyndrome_of_two_le_weight (hx : 2 ≤ byteWeight x) : checkSyndrome b x =
    ((headerColumns.idxOf? x).map fun i => HeaderCheck.corrected (b ^^^ BitVec.twoPow 56 i)).getD .bad := by
  have nonzero : x ≠ 0 := ne_zero_of_byteWeight_pos (by omega)
  have not_hit : ¬ checkByteHits.contains x = true := by
    rw [List.contains_iff_mem, mem_checkByteHits]
    omega
  rw [checkSyndrome, if_neg nonzero, if_neg not_hit]
  cases headerColumns.idxOf? x <;> rfl

theorem checkSyndrome_column (b : HeaderBits) (hi : headerColumns[i]? = some x) :
    checkSyndrome b x = .corrected (b ^^^ BitVec.twoPow 56 i) := by
  have weight : byteWeight x = 3 := mem_headerColumns.mp (List.mem_of_getElem? hi)
  obtain ⟨bound, rfl⟩ := List.getElem?_eq_some_iff.mp hi
  have place : headerColumns.idxOf? headerColumns[i] = some i :=
    List.idxOf?_eq_some_iff.mpr ⟨bound, rfl, fun j before same =>
      before.ne (nodup_headerColumns.getElem_inj_iff.mp same)⟩
  rw [checkSyndrome_of_two_le_weight (by omega), place]
  rfl

theorem checkSyndrome_bad (b : HeaderBits) (hx : byteWeight x = 2 ∨ 4 ≤ byteWeight x) : checkSyndrome b x = .bad := by
  have no_column : headerColumns.idxOf? x = none := by
    rw [List.idxOf?_eq_none_iff, mem_headerColumns]
    omega
  rw [checkSyndrome_of_two_le_weight (by omega), no_column]
  rfl

/-- Every byte of weight 3 is a column, and no two header bits have the same one. -/
theorem exists_unique_column (hx : byteWeight x = 3) :
    ∃ i, i < 56 ∧ headerColumns[i]? = some x ∧ ∀ j, headerColumns[j]? = some x → j = i := by
  obtain ⟨i, hi⟩ := List.mem_iff_getElem?.mp (mem_headerColumns.mpr hx)
  have bound : i < 56 := (List.getElem?_eq_some_iff.mp hi).1
  exact ⟨i, bound, hi, fun j hj => ((List.getElem?_inj bound nodup_headerColumns).mp (hi.trans hj.symm)).symm⟩

/-! #### Single bit errors -/

theorem checkHeader_protectHeader (b : HeaderBits) : checkHeader (protectHeader b) = .good b := by
  rw [protectHeader, checkHeader_unpackHeader_append, BitVec.xor_self]
  exact checkSyndrome_zero b

/-- A hit on a header bit gives its column as the syndrome, and the bit is inverted back. -/
theorem checkHeader_of_header_bit_hit (b : HeaderBits) (hi : i < 56) :
    checkHeader (unpackHeader (b ^^^ BitVec.twoPow 56 i) ++ [checkByte b]) = .corrected b := by
  have column : headerColumns[i]? = some (headerColumns.getD i 0) := by
    have bound : i < headerColumns.length := hi
    rw [List.getD_eq_getElem _ _ bound, List.getElem?_eq_getElem bound]
  have syndrome : checkByte b ^^^ headerColumns.getD i 0 ^^^ checkByte b = headerColumns.getD i 0 := by
    rw [BitVec.xor_comm, ← BitVec.xor_assoc, BitVec.xor_self, BitVec.zero_xor]
  rw [checkHeader_unpackHeader_append, checkByte_xor_twoPow b hi, syndrome, checkSyndrome_column _ column,
    BitVec.xor_assoc, BitVec.xor_self, BitVec.xor_zero]

theorem checkHeader_of_check_bit_hit (b : HeaderBits) (hj : j < 8) :
    checkHeader (unpackHeader b ++ [checkByte b ^^^ BitVec.twoPow 8 j]) = .corrected b := by
  rw [checkHeader_unpackHeader_append, ← BitVec.xor_assoc, BitVec.xor_self, BitVec.zero_xor,
    checkSyndrome_of_weight_one (byteWeight_twoPow hj)]

/-- 13.2: header bits 0 and 8 give check byte 0x1D. -/
theorem checkByte_bits_0_8 : checkByte (BitVec.twoPow 56 0 ||| BitVec.twoPow 56 8) = 0x1D#8 := by decide +kernel

/-- 13.2: bit 8 lost on the line is restored. -/
theorem checkHeader_bit_8_lost : checkHeader (unpackHeader (BitVec.twoPow 56 0) ++ [0x1D#8]) =
    .corrected (BitVec.twoPow 56 0 ||| BitVec.twoPow 56 8) := by
  have lost : (BitVec.twoPow 56 0 ||| BitVec.twoPow 56 8) ^^^ BitVec.twoPow 56 8 = BitVec.twoPow 56 0 := by decide
  rw [← checkByte_bits_0_8, ← lost]
  exact checkHeader_of_header_bit_hit _ (by omega)

/-! #### What leaves is protected -/

variable {s : State}

@[simp] theorem sending_setRing (r : RingState) : (s.setRing r).ringOut.sending = s.ringOut.sending := by
  unfold State.setRing
  split <;> rfl

@[simp] theorem sending_expireEntries (n : Nat) (rest : List Outstanding) :
    (s.expireEntries n rest).ringOut.sending = s.ringOut.sending := by
  unfold State.expireEntries
  split
  · rfl
  · exact sending_setRing _

/-- The list of outstanding packets does not touch the transmission. -/
@[simp] theorem sending_joinOutstanding (o : Outstanding) :
    (s.joinOutstanding o).ringOut.sending = s.ringOut.sending := by
  unfold State.joinOutstanding
  split
  · exact sending_expireEntries _ _
  · rfl

theorem take_ringBytes (h : RingHeader) (body : List Byte) : (ringBytes h body).take 8 = protectHeader h.bits :=
  take_protectHeader_append _ _

theorem take_bytes_of_departForwarded {p : RingPacket} {rest : List RingPacket} {x : Sending}
    (hx : (s.departForwarded p rest).ringOut.sending = some x) :
    x.bytes.take 8 = protectHeader (p.departing s.now s.segmentDelay).bits := by
  obtain rfl := Option.some.inj hx
  exact take_ringBytes _ _

theorem take_bytes_of_departOwn {c : Settings} {kind : OwnKind} {payload : List Byte} {delay : BitVec 16} {x : Sending}
    (hx : (s.departOwn c kind payload delay).ringOut.sending = some x) :
    x.bytes.take 8 = protectHeader (ownHeader c kind s.ringOut.sequence payload.length delay).bits := by
  rw [State.departOwn, sending_joinOutstanding] at hx
  obtain rfl := Option.some.inj hx
  exact take_ringBytes _ _

/-- Settles O48: the check byte is linear in the header bits, so the syndrome of a single bit error is that bit's column
or a byte of weight 1; the columns are the bytes of weight 3. -/
theorem headerCheckCode : Obligations.HeaderCheckCode := by
  unfold Obligations.HeaderCheckCode
  refine ⟨headerColumns_eq, fun b j _ => getLsbD_checkByte b j, checkHeader_protectHeader,
    fun b _ hi => checkHeader_of_header_bit_hit b hi, fun b _ hj => checkHeader_of_check_bit_hit b hj,
    fun b x => ⟨fun three => ?_, checkSyndrome_bad b⟩, fun _ _ _ _ hx => ⟨_, take_bytes_of_departForwarded hx⟩,
    fun _ _ _ _ _ _ hx => ⟨_, take_bytes_of_departOwn hx⟩, fun r => ⟨_, take_protectHeader_append r.header.bits _⟩,
    checkByte_bits_0_8, checkHeader_bit_8_lost⟩
  obtain ⟨i, bound, column, unique⟩ := exists_unique_column three
  exact ⟨i, bound, column, unique, checkSyndrome_column b column⟩

end Sys2Proof

/-! ### Frames of the operations that a command runs -/

namespace Sys2Proof

open Sys2Proof.Machine

variable {s : State}

/-! #### Ring reception -/

theorem Frame.releaseRoom (s : State) : Frame [.ringOut] s s.releaseRoom := .setRingOut _ _

theorem Frame.ringLoss (s : State) : Frame [.ringIn, .ringOut] s s.ringLoss :=
  ((Frame.releaseRoom s).mono (by decide)).trans ((Frame.setRingIn _ _).mono (by decide))

theorem Frame.ringSignal (s : State) : Frame [.ringIn] s s.ringSignal :=
  .ite (.setRingIn _ _) (.refl _ _)

theorem Frame.ringTruncate (s : State) : Frame [.ringIn, .ringOut] s s.ringTruncate := by
  unfold State.ringTruncate
  split
  · exact ((Frame.releaseRoom s).mono (by decide)).trans ((Frame.setRingIn _ _).mono (by decide))
  · exact .refl _ _

theorem Frame.ringMarker (s : State) : Frame [.ringIn, .ringOut] s s.ringMarker :=
  .ite (.refl _ _) ((Frame.ringTruncate s).trans ((Frame.setRingIn _ _).mono (by decide)))

theorem Frame.refuseContent (s : State) : Frame [.roster] s s.refuseContent := .setRoster _ _

theorem Frame.takeStanding (s : State) (c : Settings) (a : Address) (sequence : Byte) (x : Standing) :
    Frame [.roster, .role, .timing, .ringOut, .notices] s (s.takeStanding c a sequence x) := by
  have stored (e : Entry) : Frame [.roster, .role, .timing, .ringOut, .notices] s (s.storeEntry e) :=
    (Frame.setRoster _ _).mono (by decide)
  have reported {t : State} (h : Frame [.roster, .role, .timing, .ringOut, .notices] s t) (b : Bool) :
      Frame [.roster, .role, .timing, .ringOut, .notices] s (if b then t.capableMember c a else t) :=
    .ite (h.trans ((Frame.capableMember t c a).mono (by decide))) h
  unfold State.takeStanding
  refine .ite (.refl _ _) ?_
  split
  · exact stored _
  · refine .ite ((Frame.setRoster _ _).mono (by decide)) (.ite (reported (stored _) _) ?_)
    exact reported ((stored _).trans ((Frame.raise _ _).mono (by decide))) _

theorem Frame.standingArrives (s : State) (c : Settings) (h : RingHeader) (payload : List Byte) :
    Frame [.roster, .role, .timing, .ringOut, .notices] s (s.standingArrives c h payload) := by
  have refused : Frame [.roster, .role, .timing, .ringOut, .notices] s s.refuseContent :=
    (Frame.refuseContent s).mono (by decide)
  unfold State.standingArrives
  split
  · exact .ite refused (.takeStanding _ _ _ _ _)
  · exact refused

theorem Frame.originLeaves (s : State) (a : Address) : Frame [.role] s (s.originLeaves a) :=
  .ite (.setRole _ _) (.refl _ _)

theorem Frame.takeLeave (s : State) (a : Address) (reason : Byte) :
    Frame [.roster, .role, .notices] s (s.takeLeave a reason) :=
  (Frame.ite (((Frame.setRoster s _).mono (by decide)).trans ((Frame.raise _ _).mono (by decide)))
    ((Frame.setRoster s _).mono (by decide))).trans ((Frame.originLeaves _ _).mono (by decide))

theorem Frame.leaveArrives (s : State) (h : RingHeader) (payload : List Byte) :
    Frame [.roster, .role, .notices] s (s.leaveArrives h payload) :=
  .ite ((Frame.refuseContent s).mono (by decide)) (.takeLeave _ _ _)

/-- What a BEAT of the own group may change, but for the frame start that it may produce at once. -/
theorem Frame.takeBeat (s : State) (c : Settings) (h : RingHeader) (b : Beat) (a : Tick) :
    Frame [.roster, .role, .timing, .presentation, .ringOut, .notices] s (s.takeBeat c h b a).1 := by
  unfold State.takeBeat
  split
  · exact ((Frame.setRole s _).mono (by decide)).trans
      (((Frame.setRoster _ _).mono (by decide)).trans ((Frame.raise _ _).mono (by decide)))
  · split
    · split
      · exact ((Frame.departOrigin s _).mono (by decide)).trans ((Frame.acceptBeat _ _ _ _ _).mono (by decide))
      · exact (Frame.setRole s _).mono (by decide)
    · split
      · exact (Frame.acceptBeat _ _ _ _ _).mono (by decide)
      · exact (Frame.setRole s _).mono (by decide)

theorem Frame.consume (s : State) (h : RingHeader) (payload : List Byte) (a : Tick) :
    Frame [.ringIn, .roster, .role, .timing, .presentation, .ringOut, .notices] s (s.consume h payload a).1 := by
  have counted (r : RingReceiver) :
      Frame [.ringIn, .roster, .role, .timing, .presentation, .ringOut, .notices] s (s.setRingIn r) :=
    (Frame.setRingIn s _).mono (by decide)
  unfold State.consume
  split
  · exact .refl _ _
  · split
    · exact .refl _ _
    · dsimp only
      split
      · exact (counted _).trans ((Frame.standingArrives _ _ _ _).mono (by decide))
      · split
        · exact (counted _).trans ((Frame.leaveArrives _ _ _).mono (by decide))
        · split
          · split
            · exact counted _
            · exact (counted _).trans ((Frame.takeBeat _ _ _ _ _).mono (by decide))
          · exact .refl _ _

theorem Frame.immediateFrameStart (s : State) (fires : Bool) (order : FrameOrder) :
    Frame frameStartParts s (s.immediateFrameStart fires order) :=
  .ite (.frameStartAt _ _ _) (.refl _ _)

/-- What a packet that has come in may change: the Ring Receiver, and what a frame start may change. -/
def receptionParts : List Part := .ringIn :: frameStartParts

theorem Frame.ringComplete (s : State) (h : RingHeader) (good : Bool) (body : List Byte) (a : Tick)
    (order : FrameOrder) : Frame receptionParts s (s.ringComplete h good body a order) := by
  have queued : Frame receptionParts s (passed h good body a s) := by
    refine ⟨rfl, fun p hp => ?_⟩
    cases p <;> first | exact absurd (by decide) hp | simp [Part.same, passed]
  rw [ringComplete_eq]
  refine .ite ?_ queued
  exact queued.trans (((Frame.consume _ _ _ _).mono (by decide)).trans
    ((Frame.immediateFrameStart _ _ _).mono (by decide)))

theorem Frame.ringLastByte (s : State) (rest : List Byte) (order : FrameOrder) :
    Frame receptionParts s (s.ringLastByte rest order) := by
  unfold State.ringLastByte
  split
  · split
    · exact .ite (.ringComplete _ _ _ _ _ _) (.refl _ _)
    · exact .refl _ _
  · exact .refl _ _

theorem Frame.ringHeaderGood (s : State) (h : RingHeader) (a : Tick) :
    Frame receptionParts s (s.ringHeaderGood h a) := by
  have left (r : RingReceiver) : Frame receptionParts s (s.setRingIn r) := (Frame.setRingIn s _).mono (by decide)
  have reserved (t : RingTransmitter) : Frame receptionParts s (s.setRingOut t) :=
    (Frame.setRingOut s _).mono (by decide)
  unfold State.ringHeaderGood
  refine .ite (left _) (.ite ((left _).trans ((Frame.ownReturned _ _).mono (by decide)))
    (.ite (left _) (.ite (left _) ?_)))
  exact .ite ((reserved _).trans (.ringComplete _ _ _ _ _ _))
    ((reserved _).trans ((Frame.setRingIn _ _).mono (by decide)))

theorem Frame.ringEighthByte (s : State) (rest : List Byte) : Frame receptionParts s (s.ringEighthByte rest) := by
  have counted (r : RingReceiver) : Frame receptionParts s (s.setRingIn r) := (Frame.setRingIn s _).mono (by decide)
  unfold State.ringEighthByte State.ringHeaderCheck
  split
  · split
    · refine .ite ?_ (.refl _ _)
      split
      · exact .ringHeaderGood _ _ _
      · exact (counted _).trans (.ringHeaderGood _ _ _)
      · exact counted _
    · exact .refl _ _
  · exact .refl _ _

/-! #### Frame starts by name, line starts -/

theorem Frame.nextLine (s : State) : Frame [.now, .timing, .ingest, .transfer, .scan] s s.nextLine := by
  unfold State.nextLine
  split
  · refine .ite ?_ (.refl _ _)
    exact (Frame.ite ((Frame.setNow s _).mono (by decide)) (.refl _ _)).trans
      (((Frame.setTiming _ _).mono (by decide)).trans ((Frame.beginLine _ _ _).mono (by decide)))
  · exact .refl _ _

/-! #### The source side -/

theorem Frame.assemblerLoss (s : State) : Frame [.ingest, .slots, .notices] s s.assemblerLoss := by
  unfold State.assemblerLoss
  split
  · exact .refl _ _
  · exact (Frame.setIngest s _).mono (by decide)
  · exact .endInProgress s

theorem Frame.abandonLine (s : State) : Frame [.ingest, .slots, .notices] s s.abandonLine :=
  ((Frame.ingestError s _).mono (by decide)).trans ((Frame.damageCurrent _).mono (by decide))

theorem Frame.rangeError (s : State) : Frame [.ingest, .slots, .notices] s s.rangeError :=
  ((Frame.ingestError s _).mono (by decide)).trans ((Frame.damageCurrent _).mono (by decide))

theorem Frame.orderError (s : State) : Frame [.ingest, .slots, .notices] s s.orderError :=
  ((Frame.ingestError s _).mono (by decide)).trans ((Frame.damageCurrent _).mono (by decide))

/-- What a LINE may change. -/
def lineParts : List Part := [.ingest, .slots, .transfer, .scan, .notices]

theorem Frame.fillLine (s : State) (c : Settings) (line first : Nat) (before pixels : List Pixel) :
    Frame lineParts s (s.fillLine c line first before pixels) :=
  .ite (.offerLine _ _ _) ((Frame.setIngest s _).mono (by decide))

theorem Frame.placeFresh (s : State) (c : Settings) (line first : Nat) (pixels : List Pixel) :
    Frame lineParts s (s.placeFresh c line first pixels) :=
  .ite (((Frame.setIngest s _).mono (by decide)).trans (.fillLine _ _ _ _ _ _))
    ((Frame.orderError s).mono (by decide))

theorem Frame.placeSegment (s : State) (c : Settings) (line first : Nat) (pixels : List Pixel) :
    Frame lineParts s (s.placeSegment c line first pixels) := by
  unfold State.placeSegment
  split
  · exact .placeFresh _ _ _ _ _
  · refine .ite (((Frame.abandonLine s).mono (by decide)).trans (.placeFresh _ _ _ _ _)) (.ite (.fillLine _ _ _ _ _ _) ?_)
    exact ((Frame.orderError s).trans (.abandonLine _)).mono (by decide)

theorem Frame.takeLine (s : State) (c : Settings) (line first : Nat) (payload : List Byte) :
    Frame lineParts s (s.takeLine c line first payload) := by
  unfold State.takeLine State.takeSegment
  split
  · exact (Frame.ingestError s _).mono (by decide)
  · exact .refl _ _
  · exact .ite ((Frame.rangeError s).mono (by decide)) (.ite ((Frame.ingestError s _).mono (by decide))
      (.ite ((Frame.rangeError s).mono (by decide)) (.placeSegment _ _ _ _ _)))

theorem Frame.mismatch (s : State) : Frame [.ingest, .slots, .notices] s s.mismatch :=
  (Frame.ingestError s _).mono (by decide)

theorem Frame.closeFrame (s : State) (c : Settings) (i : Nat) :
    Frame [.ingest, .slots, .notices] s (s.closeFrame c i) :=
  .ite (((Frame.setSlots s _).mono (by decide)).trans ((Frame.setIngest _ _).mono (by decide)))
    (((Frame.abandonSlot s _).mono (by decide)).trans ((Frame.ingestError _ _).mono (by decide)))

theorem Frame.takeFrameEnd (s : State) (c : Settings) (n : FrameNo) :
    Frame [.ingest, .slots, .notices] s (s.takeFrameEnd c n) := by
  unfold State.takeFrameEnd
  split
  · exact .mismatch s
  · exact .ite ((Frame.setIngest s _).mono (by decide)) (.mismatch s)
  · refine .ite ?_ (((Frame.abandonCurrent s).mono (by decide)).trans (.mismatch _))
    have closed : Frame [.ingest, .slots, .notices] s (if s.ingest.openLine.isSome then s.abandonLine else s) :=
      .ite (.abandonLine s) (.refl _ _)
    dsimp only
    split
    · exact closed.trans (.closeFrame _ _ _)
    · exact closed.trans ((Frame.setIngest _ _).mono (by decide))

theorem Frame.takeLinkReset (s : State) : Frame [.ingest, .slots, .report] s s.takeLinkReset :=
  ((Frame.assemblerReset s).mono (by decide)).trans ((Frame.setReport _ _).mono (by decide))

/-- What a CLEAR may change. -/
def clearParts : List Part :=
  [.ringIn, .ringOut, .roster, .link, .report, .ingest, .slots, .presentation, .role, .timing, .scan]

theorem Frame.takeClear (s : State) (a : BitVec 16) : Frame clearParts s (s.takeClear a) := by
  rw [takeClear_eq]
  refine ⟨rfl, fun p hp => ?_⟩
  cases p <;> first | exact absurd (by decide) hp | simp [Part.same]

theorem Frame.enterStandby (s : State) : Frame [.role, .timing, .ringOut, .notices] s s.enterStandby := by
  unfold State.enterStandby
  refine (Frame.ite ?_ ?_).trans ((Frame.setRole _ _).mono (by decide))
  · exact (Frame.departOrigin s _).trans ((Frame.setRole _ _).mono (by decide))
  · exact ((Frame.setRole s _).mono (by decide)).trans ((Frame.raise _ _).mono (by decide))

/-- What a WITHDRAW may change. -/
def withdrawParts : List Part := [.loader, .role, .timing, .ringOut, .notices, .presentation, .roster]

/-- Of a WITHDRAW that is taken, what follows the change of station state. -/
theorem Frame.enterWithdrawn (s : State) : Frame [.role, .timing, .ringOut, .notices, .presentation, .roster]
    (s.setLoader { s.loader with station := .withdrawn }) s.enterWithdrawn :=
  ((Frame.enterStandby _).mono (by decide)).trans (((Frame.setPresentation _ _).mono (by decide)).trans
    (((Frame.setRoster _ _).mono (by decide)).trans (((Frame.takeBackStanding _).mono (by decide)).trans
      ((Frame.offerLeave _).mono (by decide)))))

theorem Frame.takeWithdraw (s : State) : Frame withdrawParts s s.takeWithdraw := by
  unfold State.takeWithdraw
  split
  · exact ((Frame.setLoader s _).mono (by decide)).trans ((Frame.enterWithdrawn s).mono (by decide))
  · exact .refl _ _
  · exact .refl _ _
  · exact .refl _ _

theorem Frame.takeRejoin (s : State) : Frame [.loader, .role, .notices, .roster] s s.takeRejoin := by
  unfold State.takeRejoin State.enterRejoined
  split
  · exact ((Frame.setLoader s _).mono (by decide)).trans (((Frame.setRole _ _).mono (by decide)).trans
      (((Frame.raise _ _).mono (by decide)).trans ((Frame.setRoster _ _).mono (by decide))))
  · exact .refl _ _
  · exact .refl _ _
  · exact .refl _ _

theorem Frame.reportDone (s : State) : Frame [.report, .notices] s s.reportDone := by
  unfold State.reportDone
  split
  · exact .refl _ _
  · exact ((Frame.setReport s _).mono (by decide)).trans (.beginReport _)

/-! #### The image -/

/-- What the end of the image read may change. -/
def imageParts : List Part :=
  [.loader, .slots, .roster, .role, .notices, .timing, .link, .ingest, .transfer, .scan]

theorem Frame.imageRead (s : State) (image : List Byte) : Frame imageParts s (s.imageRead image) := by
  unfold State.imageRead State.enterRunning State.enterConfigFault
  split
  · exact ((Frame.setLoader s _).mono (by decide)).trans (((Frame.setSlots _ _).mono (by decide)).trans
      (((Frame.setRoster _ _).mono (by decide)).trans (((Frame.setRole _ _).mono (by decide)).trans
        (((Frame.raise _ _).mono (by decide)).trans (((Frame.setTiming _ _).mono (by decide)).trans
          (((Frame.setLink _ _).mono (by decide)).trans ((Frame.beginLine _ _ _).mono (by decide))))))))
  · exact ((Frame.setLoader s _).mono (by decide)).trans ((Frame.setLink _ _).mono (by decide))

end Sys2Proof

/-! ### Invariants: what a step can do -/

namespace Sys2Proof

open Sys2Proof.Machine

variable {p q : State → Prop} {s : State}

/-- The operations that the 38 commands run, device reset apart, keep `p`, those that may present a frame or settle an
image lead to `q`, which is `p` itself for an invariant. Every law below reads neither the command queue nor station time,
the Source Link Receiver or the Report Unit, so those change freely. -/
structure KeptByOps (p q : State → Prop) : Prop where
  weaken : ∀ s, p s → q s
  setPending : ∀ s v, p s → p (s.setPending v)
  setHeld : ∀ s v, p s → p (s.setHeld v)
  setNow : ∀ s v, p s → p (s.setNow v)
  setLink : ∀ s v, p s → p (s.setLink v)
  setReport : ∀ s v, p s → p (s.setReport v)
  setLoader : ∀ s v, v.station = s.loader.station → v.settled = s.loader.settled → p s → p (s.setLoader v)
  linkError : ∀ s, p s → p (s.raise .linkError)
  pollOverrun : ∀ s, p s → p (s.raise .pollOverrun)
  noticesTaken : ∀ s, p s → p (s.setNotices 0)
  ringCollect : ∀ s bs, p s → p (s.setRingIn (s.ringIn.collect bs))
  ringLoss : ∀ s, p s → p s.ringLoss
  ringSignal : ∀ s, p s → p s.ringSignal
  ringTruncate : ∀ s, p s → p s.ringTruncate
  ringMarker : ∀ s, p s → p s.ringMarker
  ringEighthByte : ∀ s rest, p s → q (s.ringEighthByte rest)
  ringLastByte : ∀ s rest order, p s → q (s.ringLastByte rest order)
  sendDone : ∀ s, p s → p s.sendDone
  nextFrameStart : ∀ s order, p s → q (s.nextFrameStart order)
  nextLine : ∀ s, p s → p s.nextLine
  transferDone : ∀ s c t, s.transfer = some t → s.loader.settled = some c → t.inside c = true → p s →
    p (s.transferDone c t)
  assemblerLoss : ∀ s, p s → p s.assemblerLoss
  takeFrameBegin : ∀ s c n, s.active = some c → p s → p (s.takeFrameBegin n)
  takeLine : ∀ s c line first payload, s.active = some c → p s → p (s.takeLine c line first payload)
  takeFrameEnd : ∀ s c n, s.active = some c → p s → p (s.takeFrameEnd c n)
  takeClear : ∀ s a, p s → p (s.takeClear a)
  takeLinkReset : ∀ s, p s → p s.takeLinkReset
  takeWithdraw : ∀ s c, s.active = some c → p s → p s.takeWithdraw
  takeRejoin : ∀ s c, s.active = some c → p s → p s.takeRejoin

/-- The completion of the configuration read leads from `p` to `q`. -/
def ReadLeads (p q : State → Prop) : Prop :=
  ∀ s image, s.loader.station = .configuring → p s → q (s.imageRead image)

namespace KeptByOps

variable (k : KeptByOps p q)
include k

/-! #### What passes between commands -/

theorem passTicks (d : Tick) (h : p s) : p (s.passTicks d) := by
  unfold State.passTicks
  split
  · exact k.setNow _ _ h
  · split
    · exact k.setNow _ _ h
    · exact h

theorem elapse (e : Elapsed) (h : p s) : p (s.elapse e) :=
  k.setLoader _ _ (collect_station _ _) (collect_settled _ _)
    (k.setLink _ _ (k.ringCollect _ _ (k.passTicks _ h)))

/-! #### The source link -/

theorem linkErrorTaken (r : LinkReceiver) (h : p s) : p (s.linkError r) := k.linkError _ (k.setLink _ _ h)

theorem linkCut (h : p s) : p s.linkCut := by
  unfold State.linkCut
  split
  · exact h
  · dsimp only
    split
    · exact k.setLink _ _ h
    · exact k.linkErrorTaken _ h

theorem linkMarker (h : p s) : p s.linkMarker := by
  unfold State.linkMarker
  split
  · exact h
  · exact k.setLink _ _ (k.linkCut h)

theorem linkSignal (h : p s) : p s.linkSignal := by
  have present : p (s.setLink { s.link with signal := true }) := k.setLink _ _ h
  unfold State.linkSignal
  dsimp only
  split
  · exact present
  · split
    · exact k.setLink _ _ present
    · exact present

theorem linkLoss (h : p s) : p s.linkLoss := by
  have absent : p (s.setLink { s.link with signal := false }) := k.setLink _ _ h
  unfold State.linkLoss
  dsimp only
  split
  · exact absent
  · exact k.assemblerLoss _ (k.linkErrorTaken _ absent)

theorem skipLast (h : p s) : p s.skipLast := by
  unfold State.skipLast
  split
  · exact k.setLink _ _ h
  · exact h

theorem ifConfigured {hand : Settings → State → State}
    (taken : ∀ c, s.active = some c → p s → p (hand c s)) (h : p s) : p (s.ifConfigured hand) := by
  unfold State.ifConfigured
  split
  · next c active => exact taken c active h
  · exact k.setLink _ _ h

theorem lineLastByte (rest : List Byte) (h : p s) : p (s.lineLastByte rest) := by
  unfold State.lineLastByte State.lineTaken
  split
  · split
    · split
      · split
        · exact k.ifConfigured (fun c active h => k.takeLine _ _ _ _ _ active h) (k.setLink _ _ h)
        · exact k.linkErrorTaken _ h
      · exact h
    · exact h
  · exact h

/-! #### The Report Unit -/

theorem beginReport (h : p s) : p s.beginReport := by
  unfold State.beginReport
  split
  · exact k.noticesTaken _ (k.setReport _ _ (k.setReport _ _ h))
  · exact h

theorem takePoll (x : LinkHeader) (h : p s) : p (s.takePoll x) := by
  unfold State.takePoll
  split
  · exact k.setReport _ _ h
  · split
    · exact k.pollOverrun _ (k.setReport _ _ h)
    · exact k.beginReport (k.setReport _ _ h)

theorem reportDone (h : p s) : p s.reportDone := by
  unfold State.reportDone
  split
  · exact h
  · exact k.beginReport (k.setReport _ _ h)

/-! #### Packets that complete at their header -/

theorem routePacket (kind : LinkKind) (x : LinkHeader) (h : p s) : p (s.routePacket kind x) := by
  cases kind
  case frameBegin => exact k.ifConfigured (fun c active h => k.takeFrameBegin _ _ _ active h) h
  case frameEnd => exact k.ifConfigured (fun c active h => k.takeFrameEnd _ _ _ active h) h
  case poll => exact k.takePoll x h
  case clear => exact k.takeClear _ _ h
  case linkReset => exact k.takeLinkReset _ h
  case withdraw => exact k.ifConfigured (fun c active h => k.takeWithdraw _ _ active h) h
  case rejoin => exact k.ifConfigured (fun c active h => k.takeRejoin _ _ active h) h
  case line => exact h
  case filler => exact h

theorem linkHeaderGood (x : LinkHeader) (h : p s) : p (s.linkHeaderGood x) := by
  unfold State.linkHeaderGood
  split
  · exact k.linkErrorTaken _ h
  · exact k.linkErrorTaken _ h
  · exact k.linkErrorTaken _ h
  · exact k.setLink _ _ h
  · exact k.setLink _ _ h
  · exact k.routePacket _ _ (k.setLink _ _ h)

theorem linkEighthByte (rest : List Byte) (h : p s) : p (s.linkEighthByte rest) := by
  unfold State.linkEighthByte State.linkHeaderCheck
  split
  · split
    · split
      · split
        · exact k.linkHeaderGood _ h
        · exact k.linkHeaderGood _ (k.setLink _ _ h)
        · exact k.linkErrorTaken _ h
      · exact h
    · exact h
  · exact h

/-! #### Commands -/

theorem onEvent {f : State → State} (leads : ∀ s, p s → q (f s)) (e : Elapsed) (h : p s) :
    NextMeets q (Machine.onEvent e f s) := by
  intro t ht
  unfold Machine.onEvent at ht
  split at ht
  · cases ht; exact k.weaken _ h
  · cases ht; exact leads _ (k.elapse e h)

/-- An event that keeps `p`. -/
theorem onKeptEvent {f : State → State} (kept : ∀ s, p s → p (f s)) (e : Elapsed) (h : p s) :
    NextMeets q (Machine.onEvent e f s) :=
  k.onEvent (fun s h => k.weaken _ (kept s h)) e h

theorem frameStartIf (comes : State → Bool) (order : FrameOrder) (s : State) (h : p s) :
    q (s.frameStartIf (comes s) order) := by
  unfold State.frameStartIf
  split
  · exact k.nextFrameStart _ _ h
  · exact k.weaken _ h

theorem agingDeparture (order : FrameOrder) (s : State) (h : p s) : q (s.agingDeparture order) := by
  unfold State.agingDeparture
  split
  · exact k.weaken _ (k.sendDone _ h)
  · split
    · exact k.nextFrameStart _ _ h
    · exact k.weaken _ h

theorem imageBytesTaken (read : ReadLeads p q) (rest : List Byte) (s : State) (h : p s) : q (s.imageBytesTaken rest) := by
  unfold State.imageBytesTaken
  split
  · next reading => exact read _ _ reading.1 h
  · exact k.weaken _ h

theorem execTransferComplete (e : Elapsed) (h : p s) : NextMeets p (Machine.execTransferComplete e s) := by
  intro t ht
  unfold Machine.execTransferComplete at ht
  split at ht
  · cases ht; exact h
  · split at ht
    · next x c transfer settled =>
      split at ht
      · next inside => cases ht; exact k.transferDone _ _ _ transfer settled inside (k.elapse e h)
      · cases ht
    · cases ht; exact k.elapse e h

/-- A command leads from `p` to `q`, if the completion of the configuration read and a device reset do. -/
theorem exec (i : Instr) (read : ∀ e rest, i = .configReadComplete e rest → ReadLeads p q)
    (reset : ∀ e cause, i = .deviceReset e cause → q s.deviceReset) (h : p s) :
    NextMeets q (Machine.exec i s) := by
  cases i with
  | deviceReset e cause =>
    intro t ht
    change execDeviceReset e cause s = _ at ht
    unfold execDeviceReset at ht
    split at ht
    · cases ht; exact reset e cause rfl
    · exact k.onKeptEvent (fun s h => h) e h t ht
  | resetEnd e =>
    intro t ht
    change execResetEnd e s = _ at ht
    unfold execResetEnd at ht
    split at ht
    · cases ht; exact k.weaken _ (k.setNow _ _ (k.setHeld _ _ h))
    · cases ht; exact k.weaken _ (k.elapse e h)
  | configReadComplete e rest => exact k.onEvent (k.imageBytesTaken (read e rest rfl) rest) e h
  | ringLossOfSignal e => exact k.onKeptEvent k.ringLoss e h
  | ringSignalPresent e => exact k.onKeptEvent k.ringSignal e h
  | ringStartMarker e => exact k.onKeptEvent k.ringMarker e h
  | ringFill e => exact k.onKeptEvent k.ringTruncate e h
  | ringHeaderTaken e rest => exact k.onEvent (fun s h => k.ringEighthByte s rest h) e h
  | ringPacketComplete e rest order => exact k.onEvent (fun s h => k.ringLastByte s rest order h) e h
  | ringTransmissionComplete e => exact k.onKeptEvent k.sendDone e h
  | entryAged e order => exact k.onEvent (k.agingDeparture order) e h
  | frameStart e order => exact k.onEvent (fun s h => k.nextFrameStart s order h) e h
  | listeningCountEnd e order => exact k.onEvent (k.frameStartIf _ order) e h
  | faultHoldExpiry e order => exact k.onEvent (k.frameStartIf _ order) e h
  | outstandingExpiry e order => exact k.onEvent (k.frameStartIf _ order) e h
  | holdoverEntry e order => exact k.onEvent (k.frameStartIf _ order) e h
  | holdoverExpiry e order => exact k.onEvent (k.frameStartIf _ order) e h
  | lineStart e => exact k.onKeptEvent k.nextLine e h
  | transferComplete e => exact fun t ht => k.weaken _ (k.execTransferComplete e h t ht)
  | linkLossOfSignal e =>
    intro t ht
    change execLinkLossOfSignal e s = _ at ht
    unfold execLinkLossOfSignal at ht
    split at ht
    · cases ht; exact k.weaken _ (k.setLink _ _ h)
    · cases ht; exact k.weaken _ (k.linkLoss (k.elapse e h))
  | linkSignalPresent e =>
    intro t ht
    change execLinkSignalPresent e s = _ at ht
    unfold execLinkSignalPresent at ht
    split at ht
    · cases ht; exact k.weaken _ (k.setLink _ _ h)
    · cases ht; exact k.weaken _ (k.linkSignal (k.elapse e h))
  | linkStartMarker e => exact k.onKeptEvent (fun _ => k.linkMarker) e h
  | linkFill e => exact k.onKeptEvent (fun _ => k.linkCut) e h
  | line e rest => exact k.onKeptEvent (fun _ => k.lineLastByte rest) e h
  | reportComplete e => exact k.onKeptEvent (fun _ => k.reportDone) e h
  | skipLastByte e => exact k.onKeptEvent (fun _ => k.skipLast) e h
  | linkHdrBad e rest | linkLengthBad e rest | unknownKind e rest | filler e rest | frameBegin e rest
  | frameEnd e rest | poll e rest | clear e rest | linkReset e rest | withdraw e rest | rejoin e rest
  | linkHeaderTaken e rest => exact k.onKeptEvent (fun _ => k.linkEighthByte rest) e h

/-- The same for a step, of whatever command stands at the front of the queue. -/
theorem step (read : ∀ e bytes rest, s.pending = .configReadComplete e bytes :: rest → ReadLeads p q)
    (reset : ∀ e cause rest, s.pending = .deviceReset e cause :: rest → q (s.setPending rest).deviceReset)
    (h : p s) : NextMeets q (Machine.step s) := by
  intro t ht
  unfold Machine.step at ht
  split at ht
  · cases ht; exact k.weaken _ h
  · next i rest front =>
    exact k.exec i (fun e bytes hi => read e bytes rest (hi ▸ front)) (fun e cause hi => reset e cause rest (hi ▸ front))
      (k.setPending _ _ h) t ht

end KeptByOps

/-- What the operations keep, and the configuration read and a device reset too, every step keeps. -/
theorem KeptByOps.stepKeeps (k : KeptByOps p p) (read : ReadLeads p p) (reset : ∀ s, p s → p s.deviceReset) :
    StepKeeps p :=
  fun _ h => k.step (fun _ _ _ _ => read) (fun _ _ _ _ => reset _ (k.setPending _ _ h)) h

end Sys2Proof

/-! ### Invariants: frame starts and ring reception -/

namespace Sys2Proof

open Sys2Proof.Machine

variable {p q : State → Prop} {s : State}

/-- `p` reads none of the parts `l`. -/
def Blind (l : List Part) (p : State → Prop) : Prop := ∀ s t, Frame l s t → p s → p t

/-- An operation within parts that `p` does not read keeps `p`. -/
theorem Blind.keeps {l m : List Part} {t : State} (b : Blind l p) (f : Frame m s t) (h : p s)
    (sub : ∀ q ∈ m, q ∈ l := by decide) : p t := b _ _ (f.mono sub) h

/-- A frame start is the Timing Unit's work and then the blocks', in some order. -/
theorem frameStartAt_keeps (timing : ∀ s c t, s.loader.settled = some c → p s → p (s.timingFrameStart c t))
    (part : ∀ s c cut d q, s.loader.settled = some c → p s → p (s.framePart c cut d q))
    (t : Tick) (order : FrameOrder) (h : p s) : p (s.frameStartAt t order) := by
  unfold State.frameStartAt
  split
  · next c _ settled _ =>
    have parts (cut : Bool) (d : Tick) (l : List FramePart) (u : State) (hu : u.loader.settled = some c) (h : p u) :
        p (l.foldl (State.framePart c cut d) u) := by
      induction l generalizing u with
      | nil => exact h
      | cons q l ih =>
        have same : u.loader = (u.framePart c cut d q).loader := (Frame.framePart u c cut d q).2 .loader (by decide)
        exact ih _ (same ▸ hu) (part _ _ _ _ _ hu h)
    have same : s.loader = (s.timingFrameStart c t).loader := (Frame.timingFrameStart s c t).2 .loader (by decide)
    exact parts _ _ _ _ (same ▸ settled) (timing _ _ _ settled h)
  · exact h

theorem nextFrameStart_leads (weaken : ∀ s, p s → q s) (start : ∀ s t order, p s → q (s.frameStartAt t order))
    (order : FrameOrder) (h : p s) : q (s.nextFrameStart order) := by
  unfold State.nextFrameStart
  split
  · exact start _ _ _ h
  · exact weaken _ h

theorem nextFrameStart_keeps (start : ∀ s t order, p s → p (s.frameStartAt t order)) (order : FrameOrder) (h : p s) :
    p (s.nextFrameStart order) :=
  nextFrameStart_leads (fun _ h => h) start order h

/-- The consumers of a good packet keep `p`, and the frame start that its BEAT may produce at once leads to `q`. -/
structure KeptByConsumers (p q : State → Prop) : Prop where
  weaken : ∀ s, p s → q s
  counted : ∀ s r, r.packet = s.ringIn.packet → p s → p (s.setRingIn r)
  refuseContent : ∀ s c, s.active = some c → p s → p s.refuseContent
  takeStanding : ∀ s c a q x, s.active = some c → a ≠ 31 → p s → p (s.takeStanding c a q x)
  takeLeave : ∀ s c a reason, s.active = some c → p s → p (s.takeLeave a reason)
  takeBeat : ∀ s c h b a, s.active = some c → p s → p (s.takeBeat c h b a).1
  frameStartAt : ∀ s t order, p s → q (s.frameStartAt t order)

namespace KeptByConsumers

variable (k : KeptByConsumers p q)
include k

theorem consume (h : RingHeader) (payload : List Byte) (a : Tick) (hp : p s) : p (s.consume h payload a).1 := by
  unfold State.consume State.standingArrives State.leaveArrives
  split
  · exact hp
  · next c active =>
    split
    · exact hp
    · have handed : p (s.setRingIn { s.ringIn with consumed := bump s.ringIn.consumed }) := k.counted _ _ rfl hp
      dsimp only
      split
      · split
        · split
          · exact k.refuseContent _ c active handed
          · next allowed => exact k.takeStanding _ c _ _ _ active allowed handed
        · exact k.refuseContent _ c active handed
      · split
        · dsimp only
          split
          · exact k.refuseContent _ c active handed
          · exact k.takeLeave _ c _ _ active handed
        · split
          · split
            · exact k.counted _ _ rfl hp
            · exact k.takeBeat _ c _ _ _ active handed
          · exact hp

/-- A packet that has been passed on is consumed if it is good. -/
theorem ringComplete_of_passed (h : RingHeader) (good : Bool) (body : List Byte) (a : Tick) (order : FrameOrder)
    (hp : p (passed h good body a s)) : q (s.ringComplete h good body a order) := by
  rw [ringComplete_eq]
  split
  · unfold State.immediateFrameStart
    dsimp only
    split
    · exact k.frameStartAt _ _ _ (k.consume _ _ _ hp)
    · exact k.weaken _ (k.consume _ _ _ hp)
  · exact k.weaken _ hp

end KeptByConsumers

/-- Packets on RING IN keep a `p` that reads neither the Ring Receiver nor the occupancy, if a packet that joins the
forward queue and the consumers of a good packet keep it. -/
structure KeptByReception (p q : State → Prop) : Prop extends KeptByConsumers p q where
  setRingIn : ∀ s r, p s → p (s.setRingIn r)
  occupancy : ∀ s n, p s → p (s.setRingOut { s.ringOut with occupancy := n })
  queued : ∀ s w, p s → p (s.setRingOut { s.ringOut with queue := s.ringOut.queue ++ [w] }).chooseOut
  ownReturned : ∀ s c q, s.active = some c → p s → p (s.ownReturned q)

namespace KeptByReception

variable (k : KeptByReception p q)
include k

theorem ringComplete (h : RingHeader) (good : Bool) (body : List Byte) (a : Tick) (order : FrameOrder) (hp : p s) :
    q (s.ringComplete h good body a order) := by
  have forwarded := k.queued _ (completedPacket h good body a)
    (k.setRingIn _ ((s.ringIn.leave .hunt).countCompletion h.taint good) hp)
  unfold State.ringComplete
  dsimp only
  split
  · unfold State.immediateFrameStart
    split
    · exact k.frameStartAt _ _ _ (k.toKeptByConsumers.consume _ _ _ forwarded)
    · exact k.weaken _ (k.toKeptByConsumers.consume _ _ _ forwarded)
  · exact k.weaken _ forwarded

theorem ringLastByte (s : State) (rest : List Byte) (order : FrameOrder) (h : p s) : q (s.ringLastByte rest order) := by
  unfold State.ringLastByte
  split
  · split
    · split
      · exact k.ringComplete _ _ _ _ _ h
      · exact k.weaken _ h
    · exact k.weaken _ h
  · exact k.weaken _ h

theorem ringHeaderGood (x : RingHeader) (a : Tick) (h : p s) : q (s.ringHeaderGood x a) := by
  have left (r : RingReceiver) : p (s.setRingIn r) := k.setRingIn _ _ h
  have leads (r : RingReceiver) : q (s.setRingIn r) := k.weaken _ (left r)
  unfold State.ringHeaderGood
  split
  · exact leads _
  · split
    · next own =>
      cases active : s.active with
      | none => simp [State.ownPacket, active] at own
      | some c => exact k.weaken _ (k.ownReturned _ c _ active (left _))
    · split
      · exact leads _
      · split
        · exact leads _
        · have room := k.occupancy s (s.ringOut.occupancy + x.size) h
          dsimp only
          split
          · exact k.ringComplete _ _ _ _ _ room
          · exact k.weaken _ (k.setRingIn _ _ room)

theorem ringEighthByte (s : State) (rest : List Byte) (h : p s) : q (s.ringEighthByte rest) := by
  unfold State.ringEighthByte State.ringHeaderCheck
  split
  · split
    · split
      · split
        · exact k.ringHeaderGood _ _ h
        · exact k.ringHeaderGood _ _ (k.setRingIn _ _ h)
        · exact k.weaken _ (k.setRingIn _ _ h)
      · exact k.weaken _ h
    · exact k.weaken _ h
  · exact k.weaken _ h

theorem ringLoss (s : State) (h : p s) : p s.ringLoss := k.setRingIn _ _ (k.occupancy _ _ h)

theorem ringSignal (s : State) (h : p s) : p s.ringSignal := by
  unfold State.ringSignal
  split
  · exact k.setRingIn _ _ h
  · exact h

theorem ringTruncate (s : State) (h : p s) : p s.ringTruncate := by
  unfold State.ringTruncate
  split
  · exact k.setRingIn _ _ (k.occupancy _ _ h)
  · exact h

theorem ringMarker (s : State) (h : p s) : p s.ringMarker := by
  unfold State.ringMarker
  split
  · exact h
  · exact k.setRingIn _ _ (k.ringTruncate _ h)

end KeptByReception

end Sys2Proof

/-! ### The roster under the operations -/

namespace Sys2Proof

open Sys2Proof.Machine

variable {s : State}

/-- The departure of an own packet leaves the roster as it is; the aging comes after it. -/
theorem roster_departOwn {c : Settings} {kind : OwnKind} {payload : List Byte} {d : BitVec 16} :
    (s.departOwn c kind payload d).roster = s.roster :=
  ((Frame.departOwn s c kind payload d).2 .roster (by decide)).symm

theorem roster_ownStandingDeparts (q : Byte) :
    (s.ownStandingDeparts q).roster = { s.roster.age with ownSequence := q } := by
  unfold State.ownStandingDeparts
  dsimp only
  split <;> rfl

/-- RING OUT's choice ages the roster where the own STANDING departs, and leaves it alone otherwise (R53). -/
theorem roster_chooseOut (s : State) :
    s.chooseOut.roster = s.roster ∨ ∃ q, s.chooseOut.roster = { s.roster.age with ownSequence := q } := by
  unfold State.chooseOut
  split
  · exact .inl rfl
  · split
    · exact .inl rfl
    · split
      · exact .inl rfl
      · split
        · exact .inl roster_departOwn
        · split
          · exact .inl roster_departOwn
          · split
            · exact .inr ⟨_, by rw [State.departStanding, roster_ownStandingDeparts, roster_departOwn]; rfl⟩
            · exact .inl rfl

/-- An aged table holds the entries that were there, with another SILENCE. -/
theorem mem_age_entries {r : RosterUnit} {x : Entry} (h : x ∈ r.age.entries) :
    ∃ y ∈ r.entries, x = { y with silence := y.silence + 1 } := by
  obtain ⟨y, hy, rfl⟩ := List.mem_map.1 h
  exact ⟨y, List.mem_of_mem_filter hy, rfl⟩

theorem mem_putEntry {x y : Entry} {es : List Entry} (h : y ∈ putEntry x es) : y = x ∨ y ∈ es := by
  induction es with
  | nil => exact .inl (List.mem_singleton.1 h)
  | cons e es ih =>
    unfold putEntry at h
    split at h
    · exact List.mem_cons.1 h
    · split at h
      · exact (List.mem_cons.1 h).imp_right (List.mem_cons_of_mem e)
      · rcases List.mem_cons.1 h with rfl | h
        · exact .inr (by simp)
        · exact (ih h).imp_right (List.mem_cons_of_mem e)

theorem findEntry_some {a : Address} {es : List Entry} {y : Entry} (h : findEntry a es = some y) :
    y ∈ es ∧ y.address = a :=
  ⟨List.mem_of_find?_eq_some h, by simpa using List.find?_some h⟩

theorem mem_removeEntry {a : Address} {es : List Entry} {x : Entry} (h : x ∈ removeEntry a es) : x ∈ es :=
  List.mem_of_mem_filter h

@[simp] theorem entries_originLeaves (a : Address) : (s.originLeaves a).roster = s.roster :=
  ((Frame.originLeaves s a).2 .roster (by decide)).symm

@[simp] theorem roster_capableMember (c : Settings) (a : Address) : (s.capableMember c a).roster = s.roster :=
  ((Frame.capableMember s c a).2 .roster (by decide)).symm

theorem roster_takeLeave (a : Address) (reason : Byte) : (s.takeLeave a reason).roster =
    { s.roster with
      entries := removeEntry a s.roster.entries, leavesTaken := bump s.roster.leavesTaken,
      lastLeave := some { address := a, reason := reason } } := by
  unfold State.takeLeave
  rw [entries_originLeaves]
  split <;> rfl

/-- What a BEAT does to the roster: a differing period starts the mismatch hold (R45, R63), and nothing else. -/
theorem roster_takeBeat (s : State) (c : Settings) (h : RingHeader) (b : Beat) (a : Tick) :
    ∃ n, (s.takeBeat c h b a).1.roster = { s.roster with mismatchHold := n } := by
  have accepted (t : State) : (t.acceptBeat c h b a).1.roster = t.roster :=
    ((Frame.acceptBeat t c h b a).2 .roster (by decide)).symm
  have left : (s.departOrigin .follower).roster = s.roster :=
    ((Frame.departOrigin s .follower).2 .roster (by decide)).symm
  unfold State.takeBeat
  split
  · exact ⟨Config.faultHold, rfl⟩
  · refine ⟨s.roster.mismatchHold, ?_⟩
    split
    · split
      · exact (accepted _).trans left
      · rfl
    · split
      · exact accepted _
      · rfl

/-! #### What a device reset and the entry to RUNNING leave -/

theorem deviceReset_eq (s : State) : ∃ mem draws, s.deviceReset = .afterReset true s.pending s.link.signal mem draws := by
  unfold State.deviceReset
  split <;> exact ⟨_, _, rfl⟩

/-- What the image read leaves of the loader, the roles and the roster. -/
theorem imageRead_cases (s : State) (image : List Byte) :
    (∃ c, checkImage image = .ok c ∧ s.imageRead image = s.enterRunning image c ∧
      (s.enterRunning image c).loader = ⟨.running, image, some c, none⟩ ∧
      (s.enterRunning image c).role = { s.role with role := .listening, listening := 0 } ∧
      (s.enterRunning image c).roster = { s.roster with ownPresent := true }) ∨
    (∃ cause, checkImage image = .error cause ∧ s.imageRead image = s.enterConfigFault image cause) := by
  unfold State.imageRead
  split
  · next c ok =>
    refine .inl ⟨c, ok, rfl, ?_⟩
    unfold State.enterRunning
    exact ⟨((Frame.beginLine _ c 0).2 .loader (by decide)).symm, ((Frame.beginLine _ c 0).2 .role (by decide)).symm,
      ((Frame.beginLine _ c 0).2 .roster (by decide)).symm⟩
  · next cause bad => exact .inr ⟨cause, bad, rfl⟩

end Sys2Proof

/-! ### An ORIGIN is REFERENCE, and no capable MEMBER stands below it (R58) -/

namespace Sys2Proof

open Sys2Proof.Machine

variable {s : State}

/-- What the law of R58 reads. -/
theorem OriginLaw.blind :
    Blind [.held, .now, .presentation, .slots, .ringIn, .ringOut, .link, .ingest, .transfer, .scan, .report, .notices,
      .mem, .draws] OriginLaw := by
  intro s t f h
  have loader : s.loader = t.loader := f.2 .loader (by decide)
  have role : s.role = t.role := f.2 .role (by decide)
  have timing : s.timing = t.timing := f.2 .timing (by decide)
  have roster : s.roster = t.roster := f.2 .roster (by decide)
  unfold OriginLaw at *
  rwa [← loader, ← role, ← timing, ← roster]

theorem OriginLaw.of_other (h : s.role.role ≠ .origin) : OriginLaw s := fun _ _ r => absurd r h

theorem OriginLaw.of_unsettled (h : s.loader.settled = none) : OriginLaw s := fun c hc => by simp [h] at hc

/-- With the roles as they were, the law stays where every capable MEMBER stands at an address where one stood. -/
theorem OriginLaw.of_entries {t : State} (h : OriginLaw s) (loader : t.loader.settled = s.loader.settled)
    (role : t.role.role = s.role.role) (lock : t.timing.lock = s.timing.lock)
    (entries : ∀ x ∈ t.roster.entries, x.member = true → x.said.capable = true →
      ∃ y ∈ s.roster.entries, y.member = true ∧ y.said.capable = true ∧ y.address = x.address) : OriginLaw t := by
  intro c settled origin
  obtain ⟨reference, above⟩ := h c (loader ▸ settled) (role ▸ origin)
  refine ⟨lock.trans reference, fun x hx member capable => ?_⟩
  obtain ⟨y, hy, hm, hc, same⟩ := entries x hx member capable
  exact same ▸ above y hy hm hc

theorem OriginLaw.chooseOut (h : OriginLaw s) : OriginLaw s.chooseOut := by
  have same {p : Part} (hp : p ∉ [Part.ringOut, .roster, .notices]) : p.same s s.chooseOut := (Frame.chooseOut s).2 p hp
  have loader : s.loader = s.chooseOut.loader := same (p := .loader) (by decide)
  have role : s.role = s.chooseOut.role := same (p := .role) (by decide)
  have timing : s.timing = s.chooseOut.timing := same (p := .timing) (by decide)
  refine h.of_entries (by rw [loader]) (by rw [role]) (by rw [timing]) fun x hx member capable => ?_
  rcases roster_chooseOut s with kept | ⟨q, aged⟩
  · rw [kept] at hx
    exact ⟨x, hx, member, capable, rfl⟩
  · rw [aged] at hx
    obtain ⟨y, hy, rfl⟩ := mem_age_entries hx
    exact ⟨y, hy, member, capable, rfl⟩

theorem role_departOrigin (r : Role) : (s.departOrigin r).role.role = r := by rw [departOrigin_eq]; rfl

/-- After a capable MEMBER has been reported, an ORIGIN at a higher address has yielded (R69). -/
theorem OriginLaw.capableMember {c : Settings} {e : Entry} (settled : s.loader.settled = some c) (h : OriginLaw s) :
    OriginLaw ((s.storeEntry e).capableMember c e.address) := by
  unfold State.capableMember
  split
  · exact .of_other (by simp [State.yieldByMember, role_departOrigin])
  · next stays =>
    intro c' settled' origin
    obtain rfl : c = c' := Option.some.inj (settled.symm.trans settled')
    obtain ⟨reference, above⟩ := h c settled origin
    refine ⟨reference, fun x hx member capable => ?_⟩
    rcases mem_putEntry hx with rfl | hx
    · exact Nat.le_of_not_lt fun low => stays ⟨origin, low⟩
    · exact above x hx member capable

/-- An entry that adds no capable MEMBER keeps the law. -/
theorem OriginLaw.storeEntry {e : Entry} (h : OriginLaw s)
    (old : e.member = true → e.said.capable = true →
      ∃ y ∈ s.roster.entries, y.member = true ∧ y.said.capable = true ∧ y.address = e.address) :
    OriginLaw (s.storeEntry e) := by
  refine h.of_entries rfl rfl rfl fun x hx member capable => ?_
  rcases mem_putEntry hx with rfl | hx
  · exact old member capable
  · exact ⟨x, hx, member, capable, rfl⟩

theorem OriginLaw.raise (n : Notice) (h : OriginLaw s) : OriginLaw (s.raise n) := h

theorem OriginLaw.takeStanding {c : Settings} {a : Address} {q : Byte} {x : Standing}
    (settled : s.loader.settled = some c) (h : OriginLaw s) : OriginLaw (s.takeStanding c a q x) := by
  unfold State.takeStanding
  dsimp only
  split
  · exact h
  · split
    · exact h.storeEntry fun member => nomatch member
    · next old found =>
      obtain ⟨stood, here⟩ := findEntry_some found
      split
      · exact h
      · split
        · next member =>
          split
          · exact h.capableMember settled
          · next change =>
            refine h.storeEntry fun _ capable => ⟨old, stood, member, ?_, here⟩
            simpa [show x.capable = true from capable] using change
        · split
          · exact h.capableMember (s := s.raise .rosterChanged) settled
          · next silent => exact (h.storeEntry fun _ capable => absurd capable silent).raise _

theorem OriginLaw.takeLeave {a : Address} {reason : Byte} (h : OriginLaw s) : OriginLaw (s.takeLeave a reason) := by
  have loader : s.loader = (s.takeLeave a reason).loader := (Frame.takeLeave s a reason).2 .loader (by decide)
  have timing : s.timing = (s.takeLeave a reason).timing := (Frame.takeLeave s a reason).2 .timing (by decide)
  have role : (s.takeLeave a reason).role.role = s.role.role := by
    unfold State.takeLeave State.originLeaves
    dsimp only
    split <;> split <;> rfl
  refine h.of_entries (by rw [loader]) role (by rw [timing]) fun x hx member capable => ?_
  rw [roster_takeLeave] at hx
  exact ⟨x, mem_removeEntry hx, member, capable, rfl⟩

/-- The acceptance of a BEAT leaves the role. -/
theorem role_acceptBeat (c : Settings) (h : RingHeader) (b : Beat) (a : Tick) :
    (s.acceptBeat c h b a).1.role.role = s.role.role := by
  have timed (t : State) : t.role = (t.timingBeat c b.epoch a h.delay).1.role :=
    (Frame.timingBeat t c b.epoch a h.delay).2 .role (by decide)
  simp only [State.acceptBeat, State.setPresentation_role, ← timed, State.setRole_role]

theorem OriginLaw.takeBeat {c : Settings} {x : RingHeader} {b : Beat} {a : Tick} (h : OriginLaw s) :
    OriginLaw (s.takeBeat c x b a).1 := by
  unfold State.takeBeat
  split
  · exact h.of_entries rfl rfl rfl fun y hy member capable => ⟨y, hy, member, capable, rfl⟩
  · split
    · split
      · exact .of_other (by rw [role_acceptBeat, role_departOrigin]; decide)
      · exact h
    · next other =>
      split
      · exact .of_other (by rw [role_acceptBeat]; exact other)
      · exact h

/-- A station that is eligible claims over no capable MEMBER at a lower address (R61, R62). -/
theorem OriginLaw.claim {c : Settings} (settled : s.loader.settled = some c) (eligible : s.eligible c = true) :
    OriginLaw (s.claim c) := by
  intro c' settled' _
  have loader : s.loader = (s.claim c).loader := (Frame.claim s c).2 .loader (by decide)
  have roster : s.roster = (s.claim c).roster := (Frame.claim s c).2 .roster (by decide)
  obtain rfl : c = c' := by rw [← loader, settled] at settled'; exact Option.some.inj settled'
  refine ⟨?_, fun x hx member capable => ?_⟩
  · simp only [State.claim, State.timingClaim, State.setLock, State.raise_timing]
    split <;> simp
  · rw [← roster] at hx
    simp only [State.eligible, Bool.and_eq_true, List.all_eq_true] at eligible
    simpa [member, capable] using eligible.2 x hx

theorem OriginLaw.roleFrameStart {c : Settings} (settled : s.loader.settled = some c) (h : OriginLaw s) :
    OriginLaw (s.roleFrameStart c) := by
  unfold State.roleFrameStart
  dsimp only
  split
  · next listening =>
    split
    · split
      · next claims =>
        exact .claim (s := s.setRole _) settled (by simp only [Bool.and_eq_true] at claims; exact claims.1)
      · exact .of_other (by simp)
    · exact .of_other (by simp [listening])
  · next follower =>
    split
    · next claims =>
      exact .claim (s := s.setRole _) settled (by simp only [Bool.and_eq_true] at claims; exact claims.1)
    · exact .of_other (by simp [follower])
  · exact h
  · next standby => exact .of_other (by simp [standby])

/-- A frame start leaves a REFERENCE station REFERENCE (R88 to R90). -/
theorem OriginLaw.timingFrameStart {c : Settings} {t : Tick} (h : OriginLaw s) :
    OriginLaw (s.timingFrameStart c t) := by
  intro c' settled origin
  have loader : s.loader = (s.timingFrameStart c t).loader := (Frame.timingFrameStart s c t).2 .loader (by decide)
  have role : s.role = (s.timingFrameStart c t).role := (Frame.timingFrameStart s c t).2 .role (by decide)
  have roster : s.roster = (s.timingFrameStart c t).roster := (Frame.timingFrameStart s c t).2 .roster (by decide)
  rw [← loader] at settled
  rw [← role] at origin
  rw [← roster]
  obtain ⟨reference, above⟩ := h c' settled origin
  refine ⟨?_, above⟩
  simp [State.timingFrameStart, State.examineLock, TimingUnit.startFrame, reference]

theorem OriginLaw.framePart {c : Settings} {cut : Bool} {d : Tick} (q : FramePart)
    (settled : s.loader.settled = some c) (h : OriginLaw s) : OriginLaw (s.framePart c cut d q) := by
  cases q
  case role => exact h.roleFrameStart settled
  case settle => exact h
  case present => exact OriginLaw.blind.keeps (.presentationStep s) h
  case firstLine => exact OriginLaw.blind.keeps (.beginLine s c 0) h
  case compose =>
    change OriginLaw (s.composition c d)
    unfold State.composition
    split
    · have passed (u : Presentation) : OriginLaw ((s.setPresentation u).passTicks d) :=
        OriginLaw.blind.keeps (s := s.setPresentation u) (.passTicks _ d) h
      exact OriginLaw.chooseOut (s := State.setRingOut _ _) (passed _)
    · exact h
  case holds => exact h
  case offer =>
    change OriginLaw s.standingOffer
    unfold State.standingOffer
    split
    · exact OriginLaw.chooseOut (s := State.setRingOut _ _) h
    all_goals exact h
  case expire => exact OriginLaw.blind.keeps (.expireOld s) h

theorem OriginLaw.frameStartAt (s : State) (t : Tick) (order : FrameOrder) (h : OriginLaw s) :
    OriginLaw (s.frameStartAt t order) :=
  frameStartAt_keeps (fun _ _ _ _ h => h.timingFrameStart) (fun _ _ _ _ q settled h => h.framePart q settled) t order h

theorem settled_of_active {c : Settings} (h : s.active = some c) : s.loader.settled = some c := by
  unfold State.active at h
  split at h <;> first | exact h | cases h

theorem OriginLaw.keptByReception : KeptByReception OriginLaw OriginLaw where
  weaken _ h := h
  counted _ _ _ h := h
  setRingIn _ _ h := h
  occupancy _ _ h := h
  queued _ _ h := OriginLaw.chooseOut (s := State.setRingOut _ _) h
  ownReturned s c q _ h := by
    unfold State.ownReturned
    split
    · exact OriginLaw.blind.keeps (.setRing (s.setRingOut _) _) h
    · exact h
  refuseContent _ _ _ h := h
  takeStanding _ _ _ _ _ active _ h := h.takeStanding (settled_of_active active)
  takeLeave _ _ _ _ _ h := h.takeLeave
  takeBeat _ _ _ _ _ _ h := h.takeBeat
  frameStartAt := OriginLaw.frameStartAt

theorem OriginLaw.enterStandby (s : State) : OriginLaw s.enterStandby := by
  refine .of_other ?_
  unfold State.enterStandby
  dsimp only
  split <;> simp [role_departOrigin]

theorem OriginLaw.takeWithdraw (h : OriginLaw s) : OriginLaw s.takeWithdraw := by
  unfold State.takeWithdraw
  split
  · have standby : OriginLaw (s.setLoader { s.loader with station := .withdrawn }).enterStandby := .enterStandby _
    have back {t : State} (h : OriginLaw t) : OriginLaw t.takeBackStanding :=
      OriginLaw.blind.keeps (.takeBackStanding t) h
    exact OriginLaw.chooseOut (s := State.setRingOut _ _) (back (t := State.setRoster _ _) standby)
  all_goals exact h

theorem OriginLaw.deviceReset (s : State) : OriginLaw s.deviceReset := by
  obtain ⟨mem, draws, e⟩ := deviceReset_eq s
  exact e ▸ .of_unsettled rfl

theorem OriginLaw.readLeads : ReadLeads OriginLaw OriginLaw := by
  intro s image _ _
  rcases imageRead_cases s image with ⟨c, -, e, -, role, -⟩ | ⟨cause, -, e⟩
  · exact .of_other (by rw [e, role]; simp)
  · exact .of_unsettled (by rw [e]; rfl)

theorem OriginLaw.keptByOps : KeptByOps OriginLaw OriginLaw where
  weaken _ h := h
  setPending _ _ h := h
  setHeld _ _ h := h
  setNow _ _ h := h
  setLink _ _ h := h
  setReport _ _ h := h
  setLoader s v station settled h := by
    intro c hc
    exact h c (settled ▸ hc)
  linkError _ h := h
  pollOverrun _ h := h
  noticesTaken _ h := h
  ringCollect _ _ h := h
  ringLoss _ h := h
  ringSignal s h := OriginLaw.keptByReception.ringSignal s h
  ringTruncate s h := OriginLaw.keptByReception.ringTruncate s h
  ringMarker s h := OriginLaw.keptByReception.ringMarker s h
  ringEighthByte s rest h := OriginLaw.keptByReception.ringEighthByte s rest h
  ringLastByte s rest order h := OriginLaw.keptByReception.ringLastByte s rest order h
  sendDone s h := by
    unfold State.sendDone
    split
    · exact h
    · exact OriginLaw.chooseOut (s := State.setRingOut _ _) h
  nextFrameStart _ order h := nextFrameStart_keeps OriginLaw.frameStartAt order h
  nextLine s h := by
    unfold State.nextLine
    split
    · dsimp only
      split
      · refine OriginLaw.blind.keeps (.beginLine _ _ _) ?_
        split <;> exact h
      · exact h
    · exact h
  transferDone s c t _ _ _ h := OriginLaw.blind.keeps (.transferDone s c t) h
  assemblerLoss s h := OriginLaw.blind.keeps (.assemblerLoss s) h
  takeFrameBegin s _ n _ h := OriginLaw.blind.keeps (.takeFrameBegin s n) h
  takeLine s c line first payload _ h := OriginLaw.blind.keeps (.takeLine s c line first payload) h
  takeFrameEnd s c n _ h := OriginLaw.blind.keeps (.takeFrameEnd s c n) h
  takeClear s a h := by
    rw [takeClear_eq]
    refine h.of_entries rfl ?_ ?_ fun x hx member capable => ⟨x, ?_, member, capable, rfl⟩
    · cases a.getLsbD 4 <;> rfl
    · cases a.getLsbD 4 <;> rfl
    · revert hx; cases a.getLsbD 0 <;> exact id
  takeLinkReset s h := OriginLaw.blind.keeps (.takeLinkReset s) h
  takeWithdraw _ _ _ h := h.takeWithdraw
  takeRejoin s _ _ h := by
    unfold State.takeRejoin
    split
    · exact .of_other (by simp [State.enterRejoined])
    all_goals exact h

/-- Settles O53: only a claim makes an ORIGIN, and it looks for a capable MEMBER below first; a STANDING that makes one
makes the ORIGIN yield at once. -/
theorem everyStepKeepsOriginLaw : Obligations.EveryStepKeepsOriginLaw :=
  OriginLaw.keptByOps.stepKeeps OriginLaw.readLeads fun s _ => OriginLaw.deviceReset s

end Sys2Proof

/-! ### The check of the configuration image (R183, R184) -/

namespace Sys2Proof

open Sys2Proof.Machine

variable {bs : List Byte} {c : Settings}

/-! #### Numbers of several bytes -/

theorem toNat_append_eq {m n : Nat} (x : BitVec m) (y : BitVec n) : (x ++ y).toNat = x.toNat * 2 ^ n + y.toNat := by
  rw [BitVec.toNat_append, ← Nat.shiftLeft_add_eq_or_of_lt y.isLt, Nat.shiftLeft_eq]

theorem toNat_word16 (hi lo : Byte) : (word16 hi lo).toNat = 256 * hi.toNat + lo.toNat := by
  rw [word16, toNat_append_eq]
  omega

/-! #### The ranges -/

/-- The table of R183 as the image holds it: each field with its value and its range. -/
def imageFields (bs : List Byte) : List (ImageField × Nat × Nat × Nat) :=
  let byte (i : Nat) : Nat := (byteAt bs i).toNat
  let word (i : Nat) : Nat := 256 * byte i + byte (i + 1)
  [(.address, byte 1 % 32, 0, 30), (.format, byte 3 % 8, 0, 3), (.slotCount, byte 3 / 8 % 8, 3, 4),
    (.lineTicks, word 4, 200, 65535), (.vb, byte 6, 2, 255), (.h, word 7, 64, 1200), (.w, word 9, 64, 1920),
    (.lockWindow, word 11, 1, 65535), (.slewLimit, word 13, 1, 4095), (.segmentDelay, word 15, 0, 4095)]

/-- The value of a row lies outside its range. -/
def rowBad (x : ImageField × Nat × Nat × Nat) : Bool := decide (x.2.1 < x.2.2.1 ∨ x.2.2.2 < x.2.1)

theorem find_rowBad_cons (f : ImageField) (v lo hi : Nat) (rows : List (ImageField × Nat × Nat × Nat)) :
    (((f, v, lo, hi) :: rows).find? rowBad).map Prod.fst =
      if v < lo ∨ hi < v then some f else (rows.find? rowBad).map Prod.fst := by
  rw [List.find?_cons]
  by_cases h : v < lo ∨ hi < v <;> simp [rowBad, h]

theorem not_within {lo hi n : Nat} : (!within lo hi n) = true ↔ n < lo ∨ hi < n := by
  simp only [within, Bool.not_eq_true', decide_eq_false_iff_not]
  omega

/-- The first field out of its range is the first bad row of the table. -/
theorem outOfRange_eq : outOfRange bs = ((imageFields bs).find? rowBad).map Prod.fst := by
  have address : (imageSettings bs).address = 31 ↔ (byteAt bs 1).toNat % 32 < 0 ∨ 30 < (byteAt bs 1).toNat % 32 := by
    have value : (imageSettings bs).address.toNat = (byteAt bs 1).toNat % 32 := BitVec.extractLsb'_toNat ..
    have last : (31 : Address).toNat = 31 := rfl
    rw [← BitVec.toNat_inj, value, last]
    omega
  have format : ∀ code : BitVec 3, (PixelFormat.ofCode code).isNone = true ↔ code.toNat < 0 ∨ 3 < code.toNat := by
    decide
  have formatCode : ((byteAt bs 3).extractLsb' 0 3).toNat = (byteAt bs 3).toNat % 8 := by
    simp [BitVec.extractLsb'_toNat]
  have slots : (imageSettings bs).slotCount = (byteAt bs 3).toNat / 8 % 8 := by
    simp only [imageSettings, BitVec.extractLsb'_toNat, Nat.shiftRight_eq_div_pow]
  unfold outOfRange
  simp only [imageFields, find_rowBad_cons, List.find?_nil, Option.map_none, Nat.reduceAdd]
  refine if_congr address rfl (if_congr (formatCode ▸ format _) rfl (if_congr (slots ▸ not_within) rfl ?_))
  simp only [not_within, imageSettings, toNat_word16]

/-- Each field that has a range lies within it (R183). -/
structure InRange (c : Settings) : Prop where
  address : c.address ≠ 31
  slotCount : 3 ≤ c.slotCount ∧ c.slotCount ≤ 4
  lineTicks : 200 ≤ c.lineTicks ∧ c.lineTicks ≤ 65535
  vb : 2 ≤ c.vb ∧ c.vb ≤ 255
  h : 64 ≤ c.h ∧ c.h ≤ 1200
  w : 64 ≤ c.w ∧ c.w ≤ 1920
  lockWindow : 1 ≤ c.lockWindow ∧ c.lockWindow ≤ 65535
  slewLimit : 1 ≤ c.slewLimit ∧ c.slewLimit ≤ 4095
  segmentDelay : c.segmentDelay ≤ 4095

/-- The ranges are what the first field out of its range looks for. -/
theorem outOfRange_eq_none_iff : outOfRange bs = none ↔
    InRange (imageSettings bs) ∧ (PixelFormat.ofCode ((byteAt bs 3).extractLsb' 0 3)).isSome = true := by
  have pass {p : Prop} [Decidable p] {f : ImageField} {rest : Option ImageField} :
      (if p then some f else rest) = none ↔ ¬ p ∧ rest = none := by
    split <;> simp_all
  unfold outOfRange
  simp only [pass, not_within, Bool.not_eq_true, Option.isNone_eq_false_iff, not_or, Nat.not_lt, and_true]
  constructor
  · exact fun ⟨address, format, slotCount, lineTicks, vb, h, w, lockWindow, slewLimit, segmentDelay⟩ =>
      ⟨⟨address, slotCount, lineTicks, vb, h, w, lockWindow, slewLimit, segmentDelay.2⟩, format⟩
  · exact fun ⟨⟨address, slotCount, lineTicks, vb, h, w, lockWindow, slewLimit, segmentDelay⟩, format⟩ =>
      ⟨address, format, slotCount, lineTicks, vb, h, w, lockWindow, slewLimit, Nat.zero_le _, segmentDelay⟩

/-! #### The five checks -/

/-- An image that passes all five checks is settled as its fields say. -/
theorem checkImage_eq_ok_iff : checkImage bs = .ok c ↔
    crc16 (bs.take 22) = word16 (byteAt bs 22) (byteAt bs 23) ∧ byteAt bs 0 = Config.imageFormat ∧
      outOfRange bs = none ∧ unusedZero bs = true ∧
      (500000 ≤ (imageSettings bs).period ∧ (imageSettings bs).period ≤ 4000000) ∧ imageSettings bs = c := by
  unfold checkImage
  split
  · next crc => simp [crc]
  · next crc =>
    rw [ne_eq, not_not] at crc
    split
    · next code => simp [code]
    · next code =>
      rw [ne_eq, not_not] at code
      split
      · next field => simp [field]
      · next field =>
        split
        · next unused => 
          rw [Bool.not_eq_true'] at unused
          simp [unused]
        · next unused =>
          split
          · next period =>
            rw [not_within] at period
            refine iff_of_false nofun fun ⟨_, _, _, _, inside, _⟩ => ?_
            omega
          · next period =>
            rw [not_within, not_or, Nat.not_lt, Nat.not_lt] at period
            have zero : unusedZero bs = true := by simpa using unused
            simp only [Except.ok.injEq]
            exact ⟨fun e => ⟨crc, code, field, zero, period, e⟩, fun ⟨_, _, _, _, _, e⟩ => e⟩

theorem inRange_of_checkImage (h : checkImage bs = .ok c) : InRange c := by
  obtain ⟨-, -, field, -, -, rfl⟩ := checkImage_eq_ok_iff.1 h
  exact (outOfRange_eq_none_iff.1 field).1

end Sys2Proof

/-! ### The laws of the roster (R42) -/

namespace Sys2Proof

open Sys2Proof.Machine

variable {s : State}

/-! #### Tables of the other stations' entries -/

/-- The entries of the other stations at a station of configuration `c`: by ascending address, none at 31 and none at the
own address. -/
structure TableFor (c : Settings) (es : List Entry) : Prop where
  sorted : es.Pairwise (fun x y => x.address.toNat < y.address.toNat)
  others : ∀ x ∈ es, x.address ≠ 31 ∧ x.address ≠ c.address

variable {c : Settings} {es : List Entry}

/-- Of the 32 addresses 31 and the own one are left out, so 30 entries are the most. -/
theorem TableFor.length_le (h : TableFor c es) (own : c.address ≠ 31) : es.length ≤ 30 := by
  obtain ⟨sorted, addresses⟩ := h
  have nodup : (es.map fun x => x.address.toNat).Nodup :=
    List.nodup_iff_pairwise_ne.2 ((List.pairwise_map.2 sorted).imp fun h => h.ne)
  have bound (a : Address) (h : a ≠ 31) : a.toNat < 31 := by
    have : a.toNat ≠ 31 := fun e => h (BitVec.eq_of_toNat_eq e)
    omega
  have inside : (es.map fun x => x.address.toNat) ⊆ (List.range 31).erase c.address.toNat := by
    intro n hn
    obtain ⟨x, hx, rfl⟩ := List.mem_map.1 hn
    obtain ⟨not31, other⟩ := addresses x hx
    exact (List.mem_erase_of_ne fun e => other (BitVec.eq_of_toNat_eq e)).2 (List.mem_range.2 (bound _ not31))
  have := (List.subperm_of_subset nodup inside).length_le
  rwa [List.length_map, List.length_erase_of_mem (List.mem_range.2 (bound _ own)), List.length_range] at this

theorem TableFor.sublist {fs : List Entry} (h : TableFor c es) (sub : fs.Sublist es) : TableFor c fs :=
  ⟨h.1.sublist sub, fun x hx => h.2 x (sub.subset hx)⟩

theorem TableFor.age {r : RosterUnit} (h : TableFor c r.entries) : TableFor c r.age.entries := by
  obtain ⟨sorted, addresses⟩ := h.sublist List.filter_sublist
  refine ⟨List.pairwise_map.2 sorted, fun x hx => ?_⟩
  obtain ⟨y, hy, rfl⟩ := List.mem_map.1 hx
  exact addresses y hy

theorem TableFor.putEntry {x : Entry} (h : TableFor c es) (not31 : x.address ≠ 31) (other : x.address ≠ c.address) :
    TableFor c (putEntry x es) := by
  refine ⟨?_, fun y hy => ?_⟩
  · replace h := h.1
    induction es with
    | nil => exact List.pairwise_singleton _ _
    | cons e es ih =>
      obtain ⟨least, sorted⟩ := List.pairwise_cons.1 h
      unfold Machine.putEntry
      split
      · next low =>
        refine List.pairwise_cons.2 ⟨fun y hy => ?_, h⟩
        rcases List.mem_cons.1 hy with rfl | hy
        · exact low
        · exact low.trans (least y hy)
      · next high =>
        split
        · next same => exact List.pairwise_cons.2 ⟨fun y hy => same ▸ least y hy, sorted⟩
        · next ne =>
          refine List.pairwise_cons.2 ⟨fun y hy => ?_, ih sorted⟩
          rcases mem_putEntry hy with rfl | hy
          · have : y.address.toNat ≠ e.address.toNat := fun e => ne (BitVec.eq_of_toNat_eq e)
            omega
          · exact least y hy
  · rcases mem_putEntry hy with rfl | hy
    · exact ⟨not31, other⟩
    · exact h.2 y hy

/-! #### The law, from the table -/

theorem rosterLaw_iff : RosterLaw s ↔
    (∀ c, s.loader.settled = some c → c.address ≠ 31) ∧
    (s.roster.ownPresent = true ↔ s.loader.station = .running) ∧
    (∀ c, s.active = some c → TableFor c s.roster.entries) ∧ (s.active = none → s.roster.entries = []) := by
  constructor
  · rintro ⟨own31, own, sorted, not31, other, -, empty⟩
    exact ⟨own31, own, fun c active => ⟨sorted, fun x hx => ⟨not31 x hx, other c active x hx⟩⟩, empty⟩
  · rintro ⟨own31, own, table, empty⟩
    cases active : s.active with
    | none =>
      rw [active] at empty
      have none_listed : s.roster.entries = [] := empty rfl
      refine ⟨own31, own, ?_, ?_, fun _ h => (nomatch active.symm.trans h), ?_, fun _ => none_listed⟩ <;>
        rw [none_listed]
      · exact List.Pairwise.nil
      · exact fun _ h => nomatch h
      · rw [List.length_nil]; split <;> decide
    | some c =>
      have listed : TableFor c s.roster.entries := table c active
      have few : s.roster.entries.length ≤ 30 := listed.length_le (own31 c (settled_of_active active))
      refine ⟨own31, own, listed.1, fun x hx => (listed.2 x hx).1, fun c' active' x hx => ?_, ?_,
        fun h => nomatch active.symm.trans h⟩
      · obtain rfl := Option.some.inj (active.symm.trans active')
        exact (listed.2 x hx).2
      · split <;> omega

/-- What the laws of the roster read. -/
theorem RosterLaw.blind :
    Blind [.held, .now, .timing, .role, .presentation, .slots, .ringIn, .ringOut, .link, .ingest, .transfer, .scan,
      .report, .notices, .mem, .draws] RosterLaw := by
  intro s t f h
  have loader : s.loader = t.loader := f.2 .loader (by decide)
  have roster : s.roster = t.roster := f.2 .roster (by decide)
  unfold RosterLaw State.active at *
  rwa [← loader, ← roster]

/-- With the loader as it was, the laws stay with entries that keep the table's form. -/
theorem RosterLaw.of_entries {t : State} (h : RosterLaw s) (station : t.loader.station = s.loader.station)
    (settled : t.loader.settled = s.loader.settled) (own : t.roster.ownPresent = s.roster.ownPresent)
    (table : ∀ c, s.active = some c → TableFor c s.roster.entries → TableFor c t.roster.entries)
    (empty : s.active = none → s.roster.entries = [] → t.roster.entries = []) : RosterLaw t := by
  obtain ⟨own31, present, tables, inactive⟩ := rosterLaw_iff.1 h
  have active : t.active = s.active := by unfold State.active; rw [station, settled]
  refine rosterLaw_iff.2 ⟨fun c hc => own31 c (settled ▸ hc), ?_, fun c hc => ?_, fun hc => ?_⟩
  · rw [own, station]; exact present
  · rw [active] at hc; exact table c hc (tables c hc)
  · rw [active] at hc; exact empty hc (inactive hc)

theorem RosterLaw.chooseOut (h : RosterLaw s) : RosterLaw s.chooseOut := by
  have loader : s.loader = s.chooseOut.loader := (Frame.chooseOut s).2 .loader (by decide)
  refine h.of_entries (by rw [loader]) (by rw [loader]) ?_ ?_ ?_ <;>
    rcases roster_chooseOut s with kept | ⟨q, aged⟩
  · rw [kept]
  · rw [aged]; rfl
  · rw [kept]; exact fun _ _ h => h
  · rw [aged]; exact fun _ _ h => h.age
  · rw [kept]; exact fun _ h => h
  · rw [aged]; intro _ none_listed; simp [RosterUnit.age, none_listed]

theorem RosterLaw.storeEntry {x : Entry} (active : s.active = some c) (not31 : x.address ≠ 31)
    (other : x.address ≠ c.address) (h : RosterLaw s) : RosterLaw (s.storeEntry x) := by
  refine h.of_entries rfl rfl rfl (fun c' active' table => ?_) fun inactive => nomatch active.symm.trans inactive
  obtain rfl := Option.some.inj (active.symm.trans active')
  exact table.putEntry not31 other

theorem RosterLaw.capableMember (c : Settings) (a : Address) (h : RosterLaw s) : RosterLaw (s.capableMember c a) :=
  RosterLaw.blind.keeps (.capableMember s c a) h

theorem RosterLaw.takeStanding {a : Address} {q : Byte} {x : Standing} (active : s.active = some c) (not31 : a ≠ 31)
    (h : RosterLaw s) : RosterLaw (s.takeStanding c a q x) := by
  have reported {t : State} (h : RosterLaw t) (b : Bool) : RosterLaw (if b then t.capableMember c a else t) := by
    split
    · exact h.capableMember c a
    · exact h
  unfold State.takeStanding
  dsimp only
  split
  · exact h
  · next other =>
    have stored (m : Bool) : RosterLaw (s.storeEntry
        { address := a, member := m, said := x, silence := 0, lastSequence := q }) :=
      h.storeEntry active not31 other
    split
    · exact stored false
    · split
      · exact h
      · split
        · exact reported (stored true) _
        · exact reported (show RosterLaw ((s.storeEntry _).raise .rosterChanged) from stored true) _

theorem RosterLaw.takeLeave {a : Address} {reason : Byte} (h : RosterLaw s) : RosterLaw (s.takeLeave a reason) := by
  have loader : s.loader = (s.takeLeave a reason).loader := (Frame.takeLeave s a reason).2 .loader (by decide)
  refine h.of_entries (by rw [loader]) (by rw [loader]) (by rw [roster_takeLeave]) (fun c _ table => ?_)
    fun _ none_listed => ?_
  · rw [roster_takeLeave]; exact table.sublist List.filter_sublist
  · rw [roster_takeLeave]; simp [none_listed, removeEntry]

theorem RosterLaw.takeBeat {x : RingHeader} {b : Beat} {a : Tick} (h : RosterLaw s) :
    RosterLaw (s.takeBeat c x b a).1 := by
  have loader : s.loader = (s.takeBeat c x b a).1.loader := (Frame.takeBeat s c x b a).2 .loader (by decide)
  obtain ⟨n, roster⟩ := roster_takeBeat s c x b a
  exact h.of_entries (by rw [loader]) (by rw [loader]) (by rw [roster]) (by rw [roster]; exact fun _ _ h => h)
    (by rw [roster]; exact fun _ h => h)

theorem RosterLaw.framePart {cut : Bool} {d : Tick} (q : FramePart) (h : RosterLaw s) :
    RosterLaw (s.framePart c cut d q) := by
  cases q
  case role => exact RosterLaw.blind.keeps (.roleFrameStart s c) h
  case settle => exact h
  case present => exact RosterLaw.blind.keeps (.presentationStep s) h
  case firstLine => exact RosterLaw.blind.keeps (.beginLine s c 0) h
  case compose =>
    change RosterLaw (s.composition c d)
    unfold State.composition
    split
    · have passed (u : Presentation) : RosterLaw ((s.setPresentation u).passTicks d) :=
        RosterLaw.blind.keeps (s := s.setPresentation u) (.passTicks _ d) h
      exact RosterLaw.chooseOut (s := State.setRingOut _ _) (passed _)
    · exact h
  case holds => exact h
  case offer =>
    change RosterLaw s.standingOffer
    unfold State.standingOffer
    split
    · exact RosterLaw.chooseOut (s := State.setRingOut _ _) h
    all_goals exact h
  case expire => exact RosterLaw.blind.keeps (.expireOld s) h

theorem RosterLaw.frameStartAt (s : State) (t : Tick) (order : FrameOrder) (h : RosterLaw s) :
    RosterLaw (s.frameStartAt t order) :=
  frameStartAt_keeps (fun s c t _ h => RosterLaw.blind.keeps (.timingFrameStart s c t) h)
    (fun _ _ _ _ q _ h => h.framePart q) t order h

theorem RosterLaw.keptByReception : KeptByReception RosterLaw RosterLaw where
  weaken _ h := h
  counted _ _ _ h := h
  setRingIn _ _ h := h
  occupancy _ _ h := h
  queued _ _ h := RosterLaw.chooseOut (s := State.setRingOut _ _) h
  ownReturned s c q _ h := by
    unfold State.ownReturned
    split
    · exact RosterLaw.blind.keeps (.setRing (s.setRingOut _) _) h
    · exact h
  refuseContent _ _ _ h := h
  takeStanding _ _ _ _ _ active not31 h := h.takeStanding active not31
  takeLeave _ _ _ _ _ h := h.takeLeave
  takeBeat _ _ _ _ _ _ h := h.takeBeat
  frameStartAt := RosterLaw.frameStartAt

/-! #### Entry to RUNNING, WITHDRAW and REJOIN -/

theorem active_of_configuring (h : s.loader.station = .configuring) : s.active = none := by
  simp [State.active, h]

theorem RosterLaw.imageRead {image : List Byte} (reading : s.loader.station = .configuring) (h : RosterLaw s) :
    RosterLaw (s.imageRead image) := by
  obtain ⟨-, own, -, empty⟩ := rosterLaw_iff.1 h
  have none_listed : s.roster.entries = [] := empty (active_of_configuring reading)
  rcases imageRead_cases s image with ⟨c, ok, e, loader, -, roster⟩ | ⟨cause, -, e⟩
  · rw [e]
    refine rosterLaw_iff.2 ⟨fun c' hc => ?_, ?_, fun c' _ => ?_, fun _ => ?_⟩
    · rw [loader] at hc
      obtain rfl : c = c' := Option.some.inj hc
      exact (inRange_of_checkImage ok).address
    · simp [loader, roster]
    · rw [roster, none_listed]
      exact ⟨List.Pairwise.nil, fun _ h => nomatch h⟩
    · rw [roster, none_listed]
  · rw [e]
    have absent : s.roster.ownPresent ≠ true := fun present => by simp [reading] at own; simp [own] at present
    exact rosterLaw_iff.2 ⟨fun _ hc => (nomatch hc), ⟨fun h => absurd h absent, fun h => (nomatch h)⟩,
      fun _ hc => (nomatch hc), fun _ => none_listed⟩

/-- The laws after a change of station state between RUNNING and WITHDRAWN that takes the own entry along (R180). -/
theorem RosterLaw.of_station {t : State} (h : RosterLaw s) (settled : t.loader.settled = s.loader.settled)
    (active : t.active = s.active) (entries : t.roster.entries = s.roster.entries)
    (own : t.roster.ownPresent = true ↔ t.loader.station = .running) : RosterLaw t := by
  obtain ⟨own31, -, tables, inactive⟩ := rosterLaw_iff.1 h
  refine rosterLaw_iff.2 ⟨?_, own, ?_, ?_⟩
  · rwa [settled]
  · rwa [active, entries]
  · rwa [active, entries]

theorem RosterLaw.takeWithdraw (h : RosterLaw s) : RosterLaw s.takeWithdraw := by
  unfold State.takeWithdraw
  split
  · next running =>
    let w := s.setLoader { s.loader with station := .withdrawn }
    have loader : w.loader = w.enterStandby.loader := (Frame.enterStandby w).2 .loader (by decide)
    have roster : w.roster = w.enterStandby.roster := (Frame.enterStandby w).2 .roster (by decide)
    have left (u : Presentation) : RosterLaw
        ((w.enterStandby.setPresentation u).setRoster { w.enterStandby.roster with ownPresent := false }) := by
      refine h.of_station ?_ ?_ ?_ ?_
      · rw [State.setRoster_loader, State.setPresentation_loader, ← loader]
        rfl
      · unfold State.active
        rw [State.setRoster_loader, State.setPresentation_loader, ← loader, running]
        rfl
      · rw [State.setRoster_roster, ← roster]
        rfl
      · rw [State.setRoster_loader, State.setPresentation_loader, ← loader]
        simp [w]
    have back {t : State} (h : RosterLaw t) : RosterLaw t.takeBackStanding :=
      RosterLaw.blind.keeps (.takeBackStanding t) h
    exact RosterLaw.chooseOut (s := State.setRingOut _ _) (back (left _))
  all_goals exact h

theorem RosterLaw.takeRejoin (h : RosterLaw s) : RosterLaw s.takeRejoin := by
  unfold State.takeRejoin
  split
  · next withdrawn =>
    exact h.of_station rfl (by unfold State.active; rw [withdrawn]; rfl) rfl (by simp [State.enterRejoined])
  all_goals exact h

theorem RosterLaw.deviceReset (s : State) : RosterLaw s.deviceReset := by
  obtain ⟨mem, draws, e⟩ := deviceReset_eq s
  rw [e]
  exact rosterLaw_iff.2 ⟨fun _ hc => (nomatch hc), ⟨fun h => (nomatch h), fun h => (nomatch h)⟩,
    fun _ hc => (nomatch hc), fun _ => rfl⟩

theorem RosterLaw.keptByOps : KeptByOps RosterLaw RosterLaw where
  weaken _ h := h
  setPending _ _ h := h
  setHeld _ _ h := h
  setNow _ _ h := h
  setLink _ _ h := h
  setReport _ _ h := h
  setLoader _ _ station settled h := h.of_entries station settled rfl (fun _ _ h => h) fun _ h => h
  linkError _ h := h
  pollOverrun _ h := h
  noticesTaken _ h := h
  ringCollect _ _ h := h
  ringLoss _ h := h
  ringSignal s h := RosterLaw.keptByReception.ringSignal s h
  ringTruncate s h := RosterLaw.keptByReception.ringTruncate s h
  ringMarker s h := RosterLaw.keptByReception.ringMarker s h
  ringEighthByte s rest h := RosterLaw.keptByReception.ringEighthByte s rest h
  ringLastByte s rest order h := RosterLaw.keptByReception.ringLastByte s rest order h
  sendDone s h := by
    unfold State.sendDone
    split
    · exact h
    · exact RosterLaw.chooseOut (s := State.setRingOut _ _) h
  nextFrameStart _ order h := nextFrameStart_keeps RosterLaw.frameStartAt order h
  nextLine s h := RosterLaw.blind.keeps (.nextLine s) h
  transferDone s c t _ _ _ h := RosterLaw.blind.keeps (.transferDone s c t) h
  assemblerLoss s h := RosterLaw.blind.keeps (.assemblerLoss s) h
  takeFrameBegin s _ n _ h := RosterLaw.blind.keeps (.takeFrameBegin s n) h
  takeLine s c line first payload _ h := RosterLaw.blind.keeps (.takeLine s c line first payload) h
  takeFrameEnd s c n _ h := RosterLaw.blind.keeps (.takeFrameEnd s c n) h
  takeClear s a h := by
    rw [takeClear_eq]
    refine h.of_entries rfl rfl ?_ ?_ ?_ <;> cases a.getLsbD 0
    · rfl
    · rfl
    · exact fun _ _ h => h
    · exact fun _ _ h => h
    · exact fun _ h => h
    · exact fun _ h => h
  takeLinkReset s h := RosterLaw.blind.keeps (.takeLinkReset s) h
  takeWithdraw _ _ _ h := h.takeWithdraw
  takeRejoin _ _ _ h := h.takeRejoin

/-- Settles O54: entries come only by STANDINGs of other stations than 31 and the own address, each at its address; so at
most 30 stand beside the own entry. -/
theorem everyStepKeepsRosterLaw : Obligations.EveryStepKeepsRosterLaw :=
  RosterLaw.keptByOps.stepKeeps (fun _ _ reading h => h.imageRead reading) fun s _ => RosterLaw.deviceReset s

end Sys2Proof

/-! ### The forward queue within 160 bytes (R113) -/

namespace Sys2Proof

open Sys2Proof.Machine

variable {s : State}

/-! #### What the occupancy counts at the Ring Transmitter -/

/-- What of the Ring Transmitter the occupancy is about. -/
structure Room where
  queue : List RingPacket
  sending : Option Sending
  occupancy : Nat

def roomOf (t : RingTransmitter) : Room := ⟨t.queue, t.sending, t.occupancy⟩

/-- The room that a packet being sent holds. -/
def sendingSize : Option Sending → Nat
  | some x =>
    match x.source with
    | .forwarded size => size
    | .own _ => 0
  | none => 0

/-- The room of the packets that wait or are being sent. -/
def transmitterSize (t : RingTransmitter) : Nat := (t.queue.map fun p => p.header.size).sum + sendingSize t.sending

theorem occupied_eq : occupied s = transmitterSize s.ringOut + s.ringIn.reservation := rfl

/-- A packet in reception whose header has been accepted holds its reservation. -/
def Reserves (r : RingReceiver) : Prop := ∀ p, r.packet = some p → p.header.isSome = true → p.reserved = true

theorem occupancyLaw_iff : OccupancyLaw s ↔
    s.ringOut.occupancy = transmitterSize s.ringOut + s.ringIn.reservation ∧ s.ringOut.occupancy ≤ 160 ∧
      Reserves s.ringIn := Iff.rfl

/-- The law reads the room and the packet in reception. -/
theorem OccupancyLaw.of_room {t : State} (h : OccupancyLaw s) (room : roomOf t.ringOut = roomOf s.ringOut)
    (packet : t.ringIn.packet = s.ringIn.packet) : OccupancyLaw t := by
  simp only [roomOf, Room.mk.injEq] at room
  obtain ⟨queue, sending, occupancy⟩ := room
  unfold OccupancyLaw occupied RingReceiver.reservation at *
  rwa [queue, sending, occupancy, packet]

theorem OccupancyLaw.blind :
    Blind [.held, .now, .loader, .timing, .role, .roster, .presentation, .slots, .link, .ingest, .transfer, .scan,
      .report, .notices, .mem, .draws] OccupancyLaw := by
  intro s t f h
  have ringIn : s.ringIn = t.ringIn := f.2 .ringIn (by decide)
  have ringOut : s.ringOut = t.ringOut := f.2 .ringOut (by decide)
  exact h.of_room (by rw [ringOut]) (by rw [ringIn])

/-! #### What keeps the room -/

@[simp] theorem roomOf_setRing (r : RingState) : roomOf (s.setRing r).ringOut = roomOf s.ringOut := by
  unfold State.setRing
  dsimp only
  split <;> rfl

@[simp] theorem roomOf_expireEntries (n : Nat) (rest : List Outstanding) :
    roomOf (s.expireEntries n rest).ringOut = roomOf s.ringOut := by
  unfold State.expireEntries
  split
  · rfl
  · exact roomOf_setRing _

@[simp] theorem roomOf_joinOutstanding (o : Outstanding) :
    roomOf (s.joinOutstanding o).ringOut = roomOf s.ringOut := by
  unfold State.joinOutstanding
  dsimp only
  split
  · exact roomOf_expireEntries _ _
  · rfl

/-- An own packet takes no room of the forward queue. -/
theorem roomOf_departOwn (c : Settings) (kind : OwnKind) (payload : List Byte) (d : BitVec 16) :
    ∃ bytes, roomOf (s.departOwn c kind payload d).ringOut =
      ⟨s.ringOut.queue, some ⟨.own kind, bytes⟩, s.ringOut.occupancy⟩ :=
  ⟨_, roomOf_joinOutstanding _⟩

theorem roomOf_departOrigin (r : Role) : roomOf (s.departOrigin r).ringOut = roomOf s.ringOut := by
  rw [departOrigin_eq]
  rfl

theorem roomOf_capableMember (c : Settings) (a : Address) :
    roomOf (s.capableMember c a).ringOut = roomOf s.ringOut := by
  unfold State.capableMember
  split
  · exact roomOf_departOrigin _
  · rfl

theorem roomOf_takeStanding (c : Settings) (a : Address) (q : Byte) (x : Standing) :
    roomOf (s.takeStanding c a q x).ringOut = roomOf s.ringOut := by
  have reported (t : State) (b : Bool) :
      roomOf (if b then t.capableMember c a else t).ringOut = roomOf t.ringOut := by
    split
    · exact roomOf_capableMember c a
    · rfl
  unfold State.takeStanding
  dsimp only
  split
  · rfl
  · split
    · rfl
    · split
      · rfl
      · split <;> exact reported _ _

theorem roomOf_takeBeat (c : Settings) (h : RingHeader) (b : Beat) (a : Tick) :
    roomOf (s.takeBeat c h b a).1.ringOut = roomOf s.ringOut := by
  have accepted (t : State) : (t.acceptBeat c h b a).1.ringOut = t.ringOut :=
    ((Frame.acceptBeat t c h b a).2 .ringOut (by decide)).symm
  unfold State.takeBeat
  split
  · rfl
  · split
    · split
      · rw [accepted]; exact roomOf_departOrigin _
      · rfl
    · split
      · rw [accepted]
      · rfl

theorem roomOf_ownReturned (q : Byte) : roomOf (s.ownReturned q).ringOut = roomOf s.ringOut := by
  unfold State.ownReturned
  split
  · exact roomOf_setRing _
  · rfl

/-- What leaves the forward queue goes on being counted while it is sent (R113). -/
theorem transmitterSize_departing (now : Tick) (segment : Nat) (p : RingPacket) (rest : List RingPacket)
    (t : RingTransmitter) :
    transmitterSize (departing now segment p rest t) = p.header.size + (rest.map fun p => p.header.size).sum :=
  Nat.add_comm _ _

theorem OccupancyLaw.chooseOut (h : OccupancyLaw s) : OccupancyLaw s.chooseOut := by
  have own {c : Settings} {t : State} {kind : OwnKind} {payload : List Byte} {d : BitVec 16}
      (idle : s.ringOut.sending = none) (room : roomOf t.ringOut = roomOf s.ringOut) (ringIn : t.ringIn = s.ringIn) :
      OccupancyLaw (t.departOwn c kind payload d) := by
    obtain ⟨bytes, departs⟩ := roomOf_departOwn (s := t) c kind payload d
    simp only [roomOf, Room.mk.injEq] at room departs
    obtain ⟨queue, -, occupancy⟩ := room
    obtain ⟨queue', sending', occupancy'⟩ := departs
    obtain ⟨count, le, reserves⟩ := occupancyLaw_iff.1 h
    have same : (t.departOwn c kind payload d).ringIn = s.ringIn :=
      ((Frame.departOwn t c kind payload d).2 .ringIn (by decide)).symm.trans ringIn
    refine occupancyLaw_iff.2 ?_
    rw [same, occupancy', occupancy]
    refine ⟨count.trans ?_, le, reserves⟩
    simp only [transmitterSize, queue', queue, sending', idle, sendingSize]
  unfold State.chooseOut
  split
  · exact h
  · next idle =>
    split
    · next p rest waiting =>
      obtain ⟨count, le, reserves⟩ := occupancyLaw_iff.1 h
      rw [departForwarded_eq]
      refine occupancyLaw_iff.2 ⟨?_, le, reserves⟩
      rw [transmitterSize_departing]
      refine count.trans ?_
      simp [transmitterSize, idle, waiting, sendingSize]
    · split
      · exact h
      · split
        · exact own idle rfl rfl
        · split
          · refine own idle ?_ rfl
            simp only [State.setRingOut_ringOut, RingTransmitter.countCapped]
            split <;> rfl
          · split
            · exact OccupancyLaw.blind.keeps (.ownStandingDeparts _ _) (own idle rfl rfl)
            · exact h

/-! #### Frame starts and consumers -/

theorem OccupancyLaw.framePart {c : Settings} {cut : Bool} {d : Tick} (q : FramePart) (h : OccupancyLaw s) :
    OccupancyLaw (s.framePart c cut d q) := by
  cases q
  case role => exact OccupancyLaw.blind.keeps (.roleFrameStart s c) h
  case settle => exact h
  case present => exact OccupancyLaw.blind.keeps (.presentationStep s) h
  case firstLine => exact OccupancyLaw.blind.keeps (.beginLine s c 0) h
  case compose =>
    change OccupancyLaw (s.composition c d)
    unfold State.composition
    split
    · have passed (u : Presentation) : OccupancyLaw ((s.setPresentation u).passTicks d) :=
        OccupancyLaw.blind.keeps (s := s.setPresentation u) (.passTicks _ d) h
      exact OccupancyLaw.chooseOut (s := State.setRingOut _ _) ((passed _).of_room rfl rfl)
    · exact h
  case holds => exact h
  case offer =>
    change OccupancyLaw s.standingOffer
    unfold State.standingOffer
    split
    · exact OccupancyLaw.chooseOut (s := State.setRingOut _ _) (h.of_room rfl rfl)
    all_goals exact h
  case expire =>
    exact h.of_room (roomOf_expireEntries _ _) (congrArg RingReceiver.packet ((Frame.expireOld s).2 .ringIn (by decide)).symm)

theorem OccupancyLaw.frameStartAt (s : State) (t : Tick) (order : FrameOrder) (h : OccupancyLaw s) :
    OccupancyLaw (s.frameStartAt t order) :=
  frameStartAt_keeps (fun s c t _ h => OccupancyLaw.blind.keeps (.timingFrameStart s c t) h)
    (fun _ _ _ _ q _ h => h.framePart q) t order h

theorem OccupancyLaw.keptByConsumers : KeptByConsumers OccupancyLaw OccupancyLaw where
  weaken _ h := h
  counted _ _ packet h := h.of_room rfl packet
  refuseContent _ _ _ h := h
  takeStanding s c a q x _ _ h := h.of_room (roomOf_takeStanding c a q x)
    (congrArg RingReceiver.packet ((Frame.takeStanding s c a q x).2 .ringIn (by decide)).symm)
  takeLeave s _ a reason _ h := OccupancyLaw.blind.keeps (.takeLeave s a reason) h
  takeBeat s c x b a _ h := h.of_room (roomOf_takeBeat c x b a)
    (congrArg RingReceiver.packet ((Frame.takeBeat s c x b a).2 .ringIn (by decide)).symm)
  frameStartAt := OccupancyLaw.frameStartAt

/-! #### The packet in reception -/

/-- The packet in reception leaves the receiver and its room is given back. -/
theorem OccupancyLaw.released {r : RingReceiver} (gone : r.packet = none) (h : OccupancyLaw s) :
    OccupancyLaw (s.releaseRoom.setRingIn r) := by
  obtain ⟨count, le, -⟩ := occupancyLaw_iff.1 h
  have empty : r.reservation = 0 := by simp [RingReceiver.reservation, gone]
  refine occupancyLaw_iff.2 ⟨?_, ?_, fun p hp => nomatch gone.symm.trans hp⟩
  · have released : s.ringOut.occupancy - s.ringIn.reservation = transmitterSize s.ringOut := by omega
    exact released.trans (by rw [State.setRingIn_ringIn, empty]; rfl)
  · exact (Nat.sub_le _ _).trans le

/-- While a header is being taken no room is reserved, and the packet may leave. -/
theorem OccupancyLaw.left {r : RingReceiver} (held : s.ringIn.reservation = 0) (gone : r.packet = none)
    (h : OccupancyLaw s) : OccupancyLaw (s.setRingIn r) := by
  obtain ⟨count, le, -⟩ := occupancyLaw_iff.1 h
  have empty : r.reservation = 0 := by simp [RingReceiver.reservation, gone]
  refine occupancyLaw_iff.2 ⟨?_, le, fun p hp => nomatch gone.symm.trans hp⟩
  rw [State.setRingIn_ringIn, empty, ← held]
  exact count

theorem reservation_of_no_header {r : RingReceiver} {p : RingRxPacket} (hp : r.packet = some p)
    (header : p.header = none) : r.reservation = 0 := by
  simp only [RingReceiver.reservation, hp, header]
  split <;> simp_all

/-- A packet that has been received whole keeps its room in the forward queue, or in transmission (R105, R113). -/
theorem OccupancyLaw.passed {h : RingHeader} {good : Bool} {body : List Byte} {a : Tick}
    (count : s.ringOut.occupancy = transmitterSize s.ringOut + h.size) (le : s.ringOut.occupancy ≤ 160) :
    OccupancyLaw (passed h good body a s) := by
  have room : (Sys2Proof.passed h good body a s).ringOut.occupancy = s.ringOut.occupancy ∧
      transmitterSize (Sys2Proof.passed h good body a s).ringOut = transmitterSize s.ringOut + h.size := by
    unfold Sys2Proof.passed
    dsimp only
    split
    · next p rest idle waiting =>
      refine ⟨rfl, ?_⟩
      rw [transmitterSize_departing]
      have sizes := congrArg (fun l => (l.map fun p : RingPacket => p.header.size).sum) waiting
      simp only [List.map_append, List.sum_append, List.map_cons, List.map_nil, List.sum_cons, List.sum_nil] at sizes
      simp only [transmitterSize, idle, sendingSize]
      exact sizes.symm
    · refine ⟨rfl, ?_⟩
      simp only [transmitterSize, List.map_append, List.sum_append, List.map_cons, List.map_nil, List.sum_cons,
        List.sum_nil, Nat.add_zero]
      exact Nat.add_right_comm _ _ _
  refine occupancyLaw_iff.2 ⟨?_, room.1 ▸ le, fun p hp => nomatch hp⟩
  rw [room.1, room.2]
  exact count

theorem OccupancyLaw.ringLastByte (rest : List Byte) (order : FrameOrder) (h : OccupancyLaw s) :
    OccupancyLaw (s.ringLastByte rest order) := by
  unfold State.ringLastByte
  split
  · next p hp =>
    split
    · next x hx =>
      split
      · obtain ⟨count, le, reserves⟩ := occupancyLaw_iff.1 h
        have reserved : s.ringIn.reservation = x.size := by
          simp [RingReceiver.reservation, hp, hx, reserves p hp (by rw [hx]; rfl)]
        exact OccupancyLaw.keptByConsumers.ringComplete_of_passed _ _ _ _ _ (.passed (reserved ▸ count) le)
      · exact h
    · exact h
  · exact h

theorem OccupancyLaw.ringHeaderGood {x : RingHeader} {a : Tick} (held : s.ringIn.reservation = 0)
    (h : OccupancyLaw s) : OccupancyLaw (s.ringHeaderGood x a) := by
  obtain ⟨count, le, -⟩ := occupancyLaw_iff.1 h
  unfold State.ringHeaderGood
  split
  · exact h.left held rfl
  · split
    · have stripped := h.left (r := { s.ringIn.leave .hunt with stripped := bump s.ringIn.stripped }) held rfl
      exact stripped.of_room (roomOf_ownReturned _)
        (congrArg RingReceiver.packet ((Frame.ownReturned _ _).2 .ringIn (by decide)).symm)
    · split
      · exact h.left held rfl
      · split
        · exact h.left held rfl
        · next fits =>
          have fits : s.ringOut.occupancy + x.size ≤ 160 := Nat.le_of_not_lt fits
          have reserved : s.ringOut.occupancy + x.size = transmitterSize s.ringOut + x.size := by omega
          dsimp only
          split
          · exact OccupancyLaw.keptByConsumers.ringComplete_of_passed _ _ _ _ _
              (.passed (s := s.setRingOut _) reserved fits)
          · exact occupancyLaw_iff.2 ⟨reserved, fits, fun p hp _ => by cases hp; rfl⟩

theorem OccupancyLaw.ringEighthByte (rest : List Byte) (h : OccupancyLaw s) : OccupancyLaw (s.ringEighthByte rest) := by
  unfold State.ringEighthByte State.ringHeaderCheck
  split
  · next p hp =>
    split
    · next header =>
      have held : s.ringIn.reservation = 0 := reservation_of_no_header hp header
      split
      · split
        · exact h.ringHeaderGood held
        · exact OccupancyLaw.ringHeaderGood (s := s.setRingIn _) held (h.of_room rfl rfl)
        · exact h.left held rfl
      · exact h
    · exact h
  · exact h

theorem OccupancyLaw.ringTruncate (h : OccupancyLaw s) : OccupancyLaw s.ringTruncate := by
  unfold State.ringTruncate
  split
  · exact h.released rfl
  · exact h

theorem packet_ringTruncate (s : State) : s.ringTruncate.ringIn.packet = none := by
  unfold State.ringTruncate
  split
  · rfl
  · next none_there => exact none_there

/-- The bytes that are collected change neither the header nor the reservation. -/
theorem OccupancyLaw.ringCollect (bs : List Byte) (h : OccupancyLaw s) :
    OccupancyLaw (s.setRingIn (s.ringIn.collect bs)) := by
  obtain ⟨count, le, reserves⟩ := occupancyLaw_iff.1 h
  have same : (s.ringIn.collect bs).reservation = s.ringIn.reservation := by
    unfold RingReceiver.collect RingReceiver.reservation
    cases hp : s.ringIn.packet with
    | none => simp only [hp]
    | some p => cases hh : p.header <;> simp only [hh]
  refine occupancyLaw_iff.2 ⟨?_, le, ?_⟩
  · rw [State.setRingIn_ringIn, same]; exact count
  · intro p hp
    rw [State.setRingIn_ringIn] at hp
    unfold RingReceiver.collect at hp
    split at hp
    · exact reserves p hp
    · next q hq =>
      split at hp <;> cases hp <;> exact reserves q hq

theorem OccupancyLaw.takeWithdraw (h : OccupancyLaw s) : OccupancyLaw s.takeWithdraw := by
  unfold State.takeWithdraw
  split
  · have standby {t : State} (h : OccupancyLaw t) : OccupancyLaw t.enterStandby := by
      have left := h.of_room (t := t.departOrigin .standby) (roomOf_departOrigin _)
        (congrArg RingReceiver.packet ((Frame.departOrigin t .standby).2 .ringIn (by decide)).symm)
      unfold State.enterStandby
      dsimp only
      split
      · exact left
      · exact h
    have back {t : State} (h : OccupancyLaw t) : OccupancyLaw t.takeBackStanding := by
      unfold State.takeBackStanding
      split
      · exact h.of_room rfl rfl
      · exact h
    have stood : OccupancyLaw (s.setLoader { s.loader with station := .withdrawn }).enterStandby := standby h
    have offered {t : State} (h : OccupancyLaw t) : OccupancyLaw t.offerLeave :=
      OccupancyLaw.chooseOut (s := State.setRingOut _ _) (h.of_room rfl rfl)
    exact offered (back (t := State.setRoster _ _) stood)
  all_goals exact h

theorem OccupancyLaw.deviceReset (s : State) : OccupancyLaw s.deviceReset := by
  obtain ⟨mem, draws, e⟩ := deviceReset_eq s
  rw [e]
  exact occupancyLaw_iff.2 ⟨rfl, Nat.zero_le _, fun _ hp => nomatch hp⟩

theorem OccupancyLaw.keptByOps : KeptByOps OccupancyLaw OccupancyLaw where
  weaken _ h := h
  setPending _ _ h := h
  setHeld _ _ h := h
  setNow _ _ h := h
  setLink _ _ h := h
  setReport _ _ h := h
  setLoader _ _ _ _ h := h
  linkError _ h := h
  pollOverrun _ h := h
  noticesTaken _ h := h
  ringCollect _ bs h := h.ringCollect bs
  ringLoss _ h := h.released rfl
  ringSignal s h := by
    unfold State.ringSignal
    split
    · exact h.of_room rfl rfl
    · exact h
  ringTruncate _ h := h.ringTruncate
  ringMarker s h := by
    unfold State.ringMarker
    split
    · exact h
    · have cut : s.ringTruncate.ringIn.reservation = 0 := by simp [RingReceiver.reservation, packet_ringTruncate]
      obtain ⟨count, le, -⟩ := occupancyLaw_iff.1 h.ringTruncate
      rw [cut] at count
      exact occupancyLaw_iff.2 ⟨count, le, fun p hp header => by cases hp; exact nomatch header⟩
  ringEighthByte _ rest h := h.ringEighthByte rest
  ringLastByte _ rest order h := h.ringLastByte rest order
  sendDone s h := by
    unfold State.sendDone
    split
    · exact h
    · next x sending =>
      obtain ⟨count, le, reserves⟩ := occupancyLaw_iff.1 h
      refine OccupancyLaw.chooseOut (s := State.setRingOut _ _) (occupancyLaw_iff.2 ⟨?_, ?_, reserves⟩)
      all_goals
        simp only [transmitterSize, sending, sendingSize] at count
        simp only [State.setRingOut_ringOut, State.setRingOut_ringIn, transmitterSize, sendingSize]
        split <;> simp_all
        omega
  nextFrameStart _ order h := nextFrameStart_keeps OccupancyLaw.frameStartAt order h
  nextLine s h := OccupancyLaw.blind.keeps (.nextLine s) h
  transferDone s c t _ _ _ h := OccupancyLaw.blind.keeps (.transferDone s c t) h
  assemblerLoss s h := OccupancyLaw.blind.keeps (.assemblerLoss s) h
  takeFrameBegin s _ n _ h := OccupancyLaw.blind.keeps (.takeFrameBegin s n) h
  takeLine s c line first payload _ h := OccupancyLaw.blind.keeps (.takeLine s c line first payload) h
  takeFrameEnd s c n _ h := OccupancyLaw.blind.keeps (.takeFrameEnd s c n) h
  takeClear s a h := by
    rw [takeClear_eq]
    refine h.of_room ?_ ?_ <;> cases a.getLsbD 0 <;> rfl
  takeLinkReset s h := OccupancyLaw.blind.keeps (.takeLinkReset s) h
  takeWithdraw _ _ _ h := h.takeWithdraw
  takeRejoin s _ _ h := OccupancyLaw.blind.keeps (.takeRejoin s) h

/-- Settles O55: room is reserved as a header is accepted, and goes with the packet from reception to the queue and on to
the transmission, whose completion gives it back. -/
theorem everyStepKeepsOccupancyLaw : Obligations.EveryStepKeepsOccupancyLaw :=
  OccupancyLaw.keptByOps.stepKeeps (fun s image _ h => OccupancyLaw.blind.keeps (.imageRead s image) h) fun s _ => OccupancyLaw.deviceReset s

end Sys2Proof

/-! ### Before RUNNING (R110, R128, R186) -/

namespace Sys2Proof

open Sys2Proof.Machine

variable {s : State} {c : Settings}

theorem active_of_loader {t : State} (h : s.loader = t.loader) : t.active = s.active := by
  unfold State.active
  rw [h]

/-- With a configuration in force the law says nothing. -/
theorem QuietLaw.of_active {t : State} (h : t.active = some c) : QuietLaw t := fun q => nomatch h.symm.trans q

/-- What runs under a configuration and leaves the loader keeps the law. -/
theorem QuietLaw.of_frame {t : State} {l : List Part} (active : s.active = some c) (f : Frame l s t)
    (h : .loader ∉ l := by decide) : QuietLaw t :=
  .of_active ((active_of_loader (f.2 .loader h)).trans active)

/-- What the law reads. -/
theorem QuietLaw.blind : Blind [.held, .now, .ringIn, .link, .report, .mem, .draws] QuietLaw := by
  intro s t f h
  have loader : s.loader = t.loader := f.2 .loader (by decide)
  have timing : s.timing = t.timing := f.2 .timing (by decide)
  have role : s.role = t.role := f.2 .role (by decide)
  have roster : s.roster = t.roster := f.2 .roster (by decide)
  have presentation : s.presentation = t.presentation := f.2 .presentation (by decide)
  have slots : s.slots = t.slots := f.2 .slots (by decide)
  have ringOut : s.ringOut = t.ringOut := f.2 .ringOut (by decide)
  have ingest : s.ingest = t.ingest := f.2 .ingest (by decide)
  have transfer : s.transfer = t.transfer := f.2 .transfer (by decide)
  have scan : s.scan = t.scan := f.2 .scan (by decide)
  have notices : s.notices = t.notices := f.2 .notices (by decide)
  unfold QuietLaw State.active at *
  rwa [← loader, ← timing, ← role, ← roster, ← presentation, ← slots, ← ringOut, ← ingest, ← transfer, ← scan,
    ← notices]

theorem QuietLaw.settled (h : QuietLaw s) (quiet : s.active = none) : s.loader.settled = none := (h quiet).1

/-- LINK_ERROR and POLL_OVERRUN may be held before RUNNING. -/
theorem QuietLaw.raise {n : Notice} (allowed : BitVec.twoPow 16 n.bit &&& 0xFEDF#16 = 0) (h : QuietLaw s) :
    QuietLaw (s.raise n) := by
  intro quiet
  obtain ⟨settled, timing, role, roster, presentation, slots, ingest, transfer, scan, leave, beat, standing,
    outstanding, sequence, ring, notices⟩ := h quiet
  refine ⟨settled, timing, role, roster, presentation, slots, ingest, transfer, scan, leave, beat, standing,
    outstanding, sequence, ring, ?_⟩
  have apart (x y z : BitVec 16) (hx : x &&& z = 0) (hy : y &&& z = 0) : (x ||| y) &&& z = 0 := by
    rw [BitVec.and_comm, BitVec.and_or_distrib_left, BitVec.and_comm z, BitVec.and_comm z, hx, hy]
    exact BitVec.or_zero
  exact apart _ _ _ notices allowed

theorem QuietLaw.chooseOut (h : QuietLaw s) : QuietLaw s.chooseOut := by
  intro quiet
  rw [active_of_loader ((Frame.chooseOut s).2 .loader (by decide))] at quiet
  have here := h quiet
  unfold State.chooseOut
  split
  · exact here
  · split
    · rw [departForwarded_eq]; exact here
    · rw [h.settled quiet]; exact here

theorem QuietLaw.frameStartAt (s : State) (t : Tick) (order : FrameOrder) (h : QuietLaw s) :
    QuietLaw (s.frameStartAt t order) := by
  cases active : s.active with
  | some c => exact .of_frame active (.frameStartAt s t order)
  | none =>
    have idle : s.frameStartAt t order = s := by simp [State.frameStartAt, h.settled active]
    rwa [idle]

theorem QuietLaw.keptByReception : KeptByReception QuietLaw QuietLaw where
  weaken _ h := h
  counted _ _ _ h := h
  setRingIn _ _ h := h
  occupancy _ _ h := h
  queued _ _ h := QuietLaw.chooseOut (s := State.setRingOut _ _) h
  ownReturned s _ q active _ := .of_frame active (.ownReturned s q)
  refuseContent s _ active _ := .of_frame active (.refuseContent s)
  takeStanding s c a q x active _ _ := .of_frame active (.takeStanding s c a q x)
  takeLeave s _ a reason active _ := .of_frame active (.takeLeave s a reason)
  takeBeat s c x b a active _ := .of_frame active (.takeBeat s c x b a)
  frameStartAt := QuietLaw.frameStartAt

theorem QuietLaw.imageRead {image : List Byte} (reading : s.loader.station = .configuring) (h : QuietLaw s) :
    QuietLaw (s.imageRead image) := by
  rcases imageRead_cases s image with ⟨c, -, e, loader, -, -⟩ | ⟨cause, -, e⟩
  · exact .of_active (c := c) (by rw [e, State.active, loader])
  · rw [e]
    intro _
    obtain ⟨-, rest⟩ := h (active_of_configuring reading)
    exact ⟨rfl, rest⟩

theorem QuietLaw.takeLinkReset (h : QuietLaw s) : QuietLaw s.takeLinkReset := by
  intro quiet
  obtain ⟨settled, timing, role, roster, presentation, slots, ingest, rest⟩ := h quiet
  refine ⟨settled, timing, role, roster, presentation, ?_, ?_, rest⟩
  · have table : s.takeLinkReset.slots = { s.slots with table := s.takeLinkReset.slots.table } := rfl
    have empty : s.takeLinkReset.slots.table = [] := by
      simp [State.takeLinkReset, State.assemblerReset, State.slotLinkReset, slots, SlotManager.reset]
    rw [table, empty, slots]
    rfl
  · have left : s.takeLinkReset.ingest = { s.ingest.leaveFrame .noFrame none with queue := [] } := rfl
    rw [left, ingest]
    rfl

theorem QuietLaw.takeClear (a : BitVec 16) (h : QuietLaw s) : QuietLaw (s.takeClear a) := by
  rw [takeClear_eq]
  intro quiet
  obtain ⟨settled, timing, role, roster, presentation, slots, ingest, transfer, scan, leave, beat, standing,
    outstanding, sequence, ring, notices⟩ := h quiet
  refine ⟨settled, ?_, ?_, ?_, ?_, ?_, ?_, transfer, ?_, ?_, ?_, ?_, ?_, ?_, ?_, notices⟩
  · simp only [timing]; split <;> rfl
  · simp only [role]; split <;> rfl
  · simp only [roster]; split <;> rfl
  · simp only [presentation]; split <;> rfl
  · simp only [slots, SlotManager.reset, ite_self]
  · simp only [ingest]; split <;> rfl
  · simp only [scan]; split <;> rfl
  all_goals
    simp only
    split <;> assumption

theorem QuietLaw.deviceReset (s : State) : QuietLaw s.deviceReset := by
  obtain ⟨mem, draws, e⟩ := deviceReset_eq s
  rw [e]
  intro _
  exact ⟨rfl, rfl, rfl, rfl, rfl, rfl, rfl, rfl, rfl, rfl, rfl, rfl, rfl, rfl, rfl, BitVec.zero_and⟩

theorem QuietLaw.keptByOps : KeptByOps QuietLaw QuietLaw where
  weaken _ h := h
  setPending _ _ h := h
  setHeld _ _ h := h
  setNow _ _ h := h
  setLink _ _ h := h
  setReport _ _ h := h
  setLoader s v station settled h := by
    intro quiet
    have same : (s.setLoader v).active = s.active := by
      unfold State.active
      rw [State.setLoader_loader, station, settled]
    obtain ⟨unsettled, rest⟩ := h (same ▸ quiet)
    exact ⟨settled.trans unsettled, rest⟩
  linkError _ h := h.raise (by decide)
  pollOverrun _ h := h.raise (by decide)
  noticesTaken s h := by
    intro quiet
    obtain ⟨settled, timing, role, roster, presentation, slots, ingest, transfer, scan, leave, beat, standing,
      outstanding, sequence, ring, -⟩ := h quiet
    exact ⟨settled, timing, role, roster, presentation, slots, ingest, transfer, scan, leave, beat, standing,
      outstanding, sequence, ring, by simp⟩
  ringCollect _ _ h := h
  ringLoss _ h := h
  ringSignal s h := QuietLaw.keptByReception.ringSignal s h
  ringTruncate s h := QuietLaw.keptByReception.ringTruncate s h
  ringMarker s h := QuietLaw.keptByReception.ringMarker s h
  ringEighthByte s rest h := QuietLaw.keptByReception.ringEighthByte s rest h
  ringLastByte s rest order h := QuietLaw.keptByReception.ringLastByte s rest order h
  sendDone s h := by
    unfold State.sendDone
    split
    · exact h
    · exact QuietLaw.chooseOut (s := State.setRingOut _ _) h
  nextFrameStart _ order h := nextFrameStart_keeps QuietLaw.frameStartAt order h
  nextLine s h := by
    cases active : s.active with
    | some c => exact .of_frame active (.nextLine s)
    | none =>
      have idle : s.nextLine = s := by simp [State.nextLine, h.settled active]
      rwa [idle]
  transferDone s c t _ settled _ h := by
    cases active : s.active with
    | some c' => exact .of_frame active (.transferDone s c t)
    | none => exact nomatch settled.symm.trans (h.settled active)
  assemblerLoss s h := by
    cases active : s.active with
    | some c => exact .of_frame active (.assemblerLoss s)
    | none =>
      have idle : s.assemblerLoss = s := by
        obtain ⟨-, -, -, -, -, -, ingest, -⟩ := h active
        simp [State.assemblerLoss, ingest, Assembler.reset]
      rwa [idle]
  takeFrameBegin s _ n active _ := .of_frame active (.takeFrameBegin s n)
  takeLine s c line first payload active _ := .of_frame active (.takeLine s c line first payload)
  takeFrameEnd s c n active _ := .of_frame active (.takeFrameEnd s c n)
  takeClear _ a h := h.takeClear a
  takeLinkReset _ h := h.takeLinkReset
  takeWithdraw s c active h := by
    unfold State.takeWithdraw
    split
    · have loader : s.enterWithdrawn.loader = { s.loader with station := .withdrawn } :=
        ((Frame.enterWithdrawn s).2 .loader (by decide)).symm
      refine .of_active (c := c) ?_
      rw [State.active, loader]
      exact settled_of_active active
    all_goals exact h
  takeRejoin s c active h := by
    unfold State.takeRejoin
    split
    · have settled := settled_of_active active
      exact .of_active (c := c) settled
    all_goals exact h

/-- Settles O56: before RUNNING every command that would change a block finds no configuration or no frame timer. -/
theorem everyStepKeepsQuietLaw : Obligations.EveryStepKeepsQuietLaw :=
  QuietLaw.keptByOps.stepKeeps (fun _ _ reading h => h.imageRead reading) fun s _ => QuietLaw.deviceReset s

end Sys2Proof

/-! ### The one part of a frame start that changes something -/

namespace Sys2Proof

open Sys2Proof.Machine

variable {s : State} {c : Settings} {P Q : State → Prop}

theorem loader_framePart (cut : Bool) (d : Tick) (x : FramePart) : (s.framePart c cut d x).loader = s.loader :=
  ((Frame.framePart s c cut d x).2 .loader (by decide)).symm

theorem loader_timingFrameStart (t : Tick) : (s.timingFrameStart c t).loader = s.loader :=
  ((Frame.timingFrameStart s c t).2 .loader (by decide)).symm

/-- What every part of a list keeps, the list keeps. -/
theorem frameParts_keep {cut : Bool} {d : Tick} {l : List FramePart}
    (keep : ∀ x ∈ l, ∀ s, s.loader.settled = some c → P s → P (s.framePart c cut d x))
    (settled : s.loader.settled = some c) (h : P s) : P (l.foldl (State.framePart c cut d) s) := by
  induction l generalizing s with
  | nil => exact h
  | cons x l ih =>
    exact ih (fun y hy => keep y (List.mem_cons_of_mem _ hy)) ((loader_framePart cut d x).symm ▸ settled)
      (keep x List.mem_cons_self s settled h)

/-- The frame start leads from `P` to `Q` by the part `q`: what comes before it keeps `P`, and what comes after it `Q`. -/
structure StartLeads (q : FramePart) (P Q : State → Prop) : Prop where
  weaken : ∀ s, P s → Q s
  timing : ∀ s c t, s.loader.settled = some c → P s → P (s.timingFrameStart c t)
  before : ∀ s c cut d x, x ≠ q → s.loader.settled = some c → P s → P (s.framePart c cut d x)
  there : ∀ s c cut d, s.loader.settled = some c → P s → Q (s.framePart c cut d q)
  after : ∀ s c cut d x, x ≠ q → s.loader.settled = some c → Q s → Q (s.framePart c cut d x)

namespace StartLeads

variable {q : FramePart} (k : StartLeads q P Q)
include k

theorem frameParts {cut : Bool} {d : Tick} {l : List FramePart} (nodup : l.Nodup) (mem : q ∈ l)
    (settled : s.loader.settled = some c) (h : P s) : Q (l.foldl (State.framePart c cut d) s) := by
  induction l generalizing s with
  | nil => exact nomatch mem
  | cons x l ih =>
    have next : (s.framePart c cut d x).loader.settled = some c := (loader_framePart cut d x).symm ▸ settled
    obtain ⟨absent, nodup⟩ := List.nodup_cons.1 nodup
    by_cases hx : x = q
    · subst hx
      rw [List.foldl_cons]
      exact frameParts_keep (fun y hy s => k.after s _ _ _ y fun e => absent (e ▸ hy)) next (k.there s _ _ _ settled h)
    · exact ih nodup ((List.mem_cons.1 mem).resolve_left (Ne.symm hx)) next (k.before s _ _ _ x hx settled h)

end StartLeads

/-- Every part comes once in the order taken. -/
theorem mem_taken (o : FrameOrder) (q : FramePart) : q ∈ o.taken :=
  (FrameOrder.taken_spec o).1.mem_iff.2 (by cases q <;> decide)

theorem nodup_taken (o : FrameOrder) : o.taken.Nodup := (FrameOrder.taken_spec o).2.1

theorem StartLeads.frameStartAt {q : FramePart} (k : StartLeads q P Q) (t : Tick) (order : FrameOrder) (h : P s) :
    Q (s.frameStartAt t order) := by
  unfold State.frameStartAt
  split
  · next c _ settled _ =>
    exact k.frameParts (nodup_taken order) (mem_taken order q) ((loader_timingFrameStart t).symm ▸ settled)
      (k.timing s c t settled h)
  · exact k.weaken _ h

end Sys2Proof

/-! ### The frame memory is written by a transfer alone (R161) -/

namespace Sys2Proof

open Sys2Proof.Machine

variable {s : State}

/-! #### What leaves the frame memory as it is -/

@[simp] theorem mem_passTicks (d : Tick) : (s.passTicks d).mem = s.mem := by
  unfold State.passTicks
  repeat' split
  all_goals rfl

@[simp] theorem mem_grant : s.grant.mem = s.mem := by
  unfold State.grant
  repeat' split
  all_goals rfl

@[simp] theorem mem_requestFetch (k : Nat) : (s.requestFetch k).mem = s.mem := by
  simp [State.requestFetch]

@[simp] theorem mem_beginLine (c : Settings) (f : Nat) : (s.beginLine c f).mem = s.mem := by
  unfold State.beginLine
  repeat' split
  all_goals simp

@[simp] theorem mem_setRing (r : RingState) : (s.setRing r).mem = s.mem := by
  unfold State.setRing
  split <;> rfl

@[simp] theorem mem_expireEntries (n : Nat) (l : List Outstanding) : (s.expireEntries n l).mem = s.mem := by
  unfold State.expireEntries
  split <;> simp

@[simp] theorem mem_expireOld : s.expireOld.mem = s.mem := by simp [State.expireOld]

@[simp] theorem mem_joinOutstanding (o : Outstanding) : (s.joinOutstanding o).mem = s.mem := by
  unfold State.joinOutstanding
  split <;> simp

@[simp] theorem mem_departForwarded (p : RingPacket) (l : List RingPacket) :
    (s.departForwarded p l).mem = s.mem := rfl

@[simp] theorem mem_departOwn (c : Settings) (kind : OwnKind) (payload : List Byte) (d : BitVec 16) :
    (s.departOwn c kind payload d).mem = s.mem := by simp [State.departOwn]

@[simp] theorem mem_ownStandingDeparts (q : Byte) : (s.ownStandingDeparts q).mem = s.mem := by
  unfold State.ownStandingDeparts
  split <;> rfl

@[simp] theorem mem_departLeave (c : Settings) : (s.departLeave c).mem = s.mem := by
  simp [State.departLeave]

@[simp] theorem mem_departBeat (c : Settings) (b : Beat) :
    (s.departBeat c b).mem = s.mem := by simp [State.departBeat]

@[simp] theorem mem_departStanding (c : Settings) : (s.departStanding c).mem = s.mem := by
  simp [State.departStanding]

@[simp] theorem mem_chooseOut : s.chooseOut.mem = s.mem := by
  unfold State.chooseOut
  repeat' split
  all_goals simp

@[simp] theorem mem_offerBeat (b : Beat) : (s.offerBeat b).mem = s.mem := by simp [State.offerBeat]

@[simp] theorem mem_offerStanding : s.offerStanding.mem = s.mem := by simp [State.offerStanding]

@[simp] theorem mem_offerLeave : s.offerLeave.mem = s.mem := by simp [State.offerLeave]

@[simp] theorem mem_takeBackBeat : s.takeBackBeat.mem = s.mem := by
  unfold State.takeBackBeat
  split <;> rfl

@[simp] theorem mem_takeBackStanding : s.takeBackStanding.mem = s.mem := by
  unfold State.takeBackStanding
  split <;> rfl

@[simp] theorem mem_ownReturned (q : Byte) : (s.ownReturned q).mem = s.mem := by
  unfold State.ownReturned
  split <;> simp

@[simp] theorem mem_setLock (l : Lock) : (s.setLock l).mem = s.mem := by
  unfold State.setLock
  split <;> rfl

@[simp] theorem mem_examineLock (t : Tick) : (s.examineLock t).mem = s.mem := by
  unfold State.examineLock
  repeat' split
  all_goals simp

@[simp] theorem mem_timingFrameStart (c : Settings) (t : Tick) :
    (s.timingFrameStart c t).mem = s.mem := by simp [State.timingFrameStart]

@[simp] theorem mem_timingClaim : s.timingClaim.mem = s.mem := by simp [State.timingClaim]

@[simp] theorem mem_timingDepart : s.timingDepart.mem = s.mem := by simp [State.timingDepart]

@[simp] theorem mem_claim (c : Settings) : (s.claim c).mem = s.mem := by simp [State.claim]

@[simp] theorem mem_roleFrameStart (c : Settings) : (s.roleFrameStart c).mem = s.mem := by
  unfold State.roleFrameStart
  dsimp only
  repeat' split
  all_goals simp

@[simp] theorem mem_departOrigin (r : Role) : (s.departOrigin r).mem = s.mem := by
  simp [State.departOrigin]

@[simp] theorem mem_yieldByMember : s.yieldByMember.mem = s.mem := by simp [State.yieldByMember]

@[simp] theorem mem_capableMember (c : Settings) (a : Address) : (s.capableMember c a).mem = s.mem := by
  unfold State.capableMember
  split <;> simp

@[simp] theorem mem_originLeaves (a : Address) : (s.originLeaves a).mem = s.mem := by
  unfold State.originLeaves
  split <;> rfl

@[simp] theorem mem_storeEntry (e : Entry) : (s.storeEntry e).mem = s.mem := rfl

@[simp] theorem mem_takeStanding (c : Settings) (a : Address) (q : Byte) (x : Standing) :
    (s.takeStanding c a q x).mem = s.mem := by
  unfold State.takeStanding
  repeat' split
  all_goals simp

@[simp] theorem mem_takeLeave (a : Address) (reason : Byte) : (s.takeLeave a reason).mem = s.mem := by
  unfold State.takeLeave
  split <;> simp

@[simp] theorem mem_presents (f : FrameNo) (i : Nat) (m : SlotManager) :
    (s.presents f i m).mem = s.mem := by simp [State.presents]

@[simp] theorem mem_applyDecision (f : FrameNo) : (s.applyDecision f).mem = s.mem := by
  unfold State.applyDecision
  repeat' split
  all_goals simp

@[simp] theorem mem_presentationStep : s.presentationStep.mem = s.mem := by
  unfold State.presentationStep
  repeat' split
  all_goals simp

@[simp] theorem mem_composition (c : Settings) (d : Tick) : (s.composition c d).mem = s.mem := by
  unfold State.composition
  split <;> simp

@[simp] theorem mem_standingOffer : s.standingOffer.mem = s.mem := by
  unfold State.standingOffer
  split <;> simp

@[simp] theorem mem_ingestError (u : Assembler) : (s.ingestError u).mem = s.mem := rfl

@[simp] theorem mem_abandonSlot (i : Nat) : (s.abandonSlot i).mem = s.mem := rfl

@[simp] theorem mem_abandonCurrent : s.abandonCurrent.mem = s.mem := by
  unfold State.abandonCurrent
  split <;> rfl

@[simp] theorem mem_damageCurrent : s.damageCurrent.mem = s.mem := by
  unfold State.damageCurrent
  split <;> rfl

@[simp] theorem mem_endInProgress : s.endInProgress.mem = s.mem := by
  unfold State.endInProgress
  split <;> simp

@[simp] theorem mem_assemblerLoss : s.assemblerLoss.mem = s.mem := by
  unfold State.assemblerLoss
  split <;> simp

@[simp] theorem mem_takeFrameBegin (n : FrameNo) : (s.takeFrameBegin n).mem = s.mem := by
  unfold State.takeFrameBegin
  dsimp only
  repeat' split
  all_goals simp

@[simp] theorem mem_abandonLine : s.abandonLine.mem = s.mem := by simp [State.abandonLine]

@[simp] theorem mem_rangeError : s.rangeError.mem = s.mem := by simp [State.rangeError]

@[simp] theorem mem_orderError : s.orderError.mem = s.mem := by simp [State.orderError]

@[simp] theorem mem_offerLine (line : Nat) (ps : List Pixel) : (s.offerLine line ps).mem = s.mem := by
  unfold State.offerLine
  repeat' split
  all_goals simp

@[simp] theorem mem_fillLine (c : Settings) (line first : Nat) (before ps : List Pixel) :
    (s.fillLine c line first before ps).mem = s.mem := by
  unfold State.fillLine
  split <;> simp

@[simp] theorem mem_startLine (c : Settings) (line : Nat) (ps : List Pixel) :
    (s.startLine c line ps).mem = s.mem := by simp [State.startLine]

@[simp] theorem mem_placeFresh (c : Settings) (line first : Nat) (ps : List Pixel) :
    (s.placeFresh c line first ps).mem = s.mem := by
  unfold State.placeFresh
  split <;> simp

@[simp] theorem mem_placeSegment (c : Settings) (line first : Nat) (ps : List Pixel) :
    (s.placeSegment c line first ps).mem = s.mem := by
  unfold State.placeSegment
  repeat' split
  all_goals simp

@[simp] theorem mem_takeSegment (c : Settings) (line first : Nat) (payload : List Byte) :
    (s.takeSegment c line first payload).mem = s.mem := by
  unfold State.takeSegment
  repeat' split
  all_goals simp

@[simp] theorem mem_takeLine (c : Settings) (line first : Nat) (payload : List Byte) :
    (s.takeLine c line first payload).mem = s.mem := by
  unfold State.takeLine
  split <;> simp

@[simp] theorem mem_mismatch : s.mismatch.mem = s.mem := rfl

@[simp] theorem mem_closeFrame (c : Settings) (i : Nat) : (s.closeFrame c i).mem = s.mem := by
  unfold State.closeFrame
  split <;> rfl

@[simp] theorem mem_takeFrameEnd (c : Settings) (n : FrameNo) : (s.takeFrameEnd c n).mem = s.mem := by
  unfold State.takeFrameEnd
  dsimp only
  repeat' split
  all_goals simp

@[simp] theorem mem_assemblerReset : s.assemblerReset.mem = s.mem := rfl

@[simp] theorem mem_takeLinkReset : s.takeLinkReset.mem = s.mem := rfl

@[simp] theorem mem_enterStandby : s.enterStandby.mem = s.mem := by
  unfold State.enterStandby
  split <;> simp

@[simp] theorem mem_enterWithdrawn : s.enterWithdrawn.mem = s.mem := by simp [State.enterWithdrawn]

@[simp] theorem mem_takeWithdraw : s.takeWithdraw.mem = s.mem := by
  unfold State.takeWithdraw
  split <;> simp

@[simp] theorem mem_takeRejoin : s.takeRejoin.mem = s.mem := by
  unfold State.takeRejoin
  split <;> rfl

@[simp] theorem mem_sendDone : s.sendDone.mem = s.mem := by
  unfold State.sendDone
  split <;> simp

@[simp] theorem mem_nextLine : s.nextLine.mem = s.mem := by
  unfold State.nextLine
  dsimp only
  repeat' split
  all_goals simp

@[simp] theorem mem_timedBeat (c : Settings) (b : Epoch) (a : Tick) (d : BitVec 16) (t : FrameTimer) :
    (s.timedBeat c b a d t).1.mem = s.mem := by
  unfold State.timedBeat
  dsimp only
  repeat' split
  all_goals simp [State.jump, State.confirmLock, State.trim, State.slipOnce]

@[simp] theorem mem_timingBeat (c : Settings) (b : Epoch) (a : Tick) (d : BitVec 16) :
    (s.timingBeat c b a d).1.mem = s.mem := by
  unfold State.timingBeat
  repeat' split
  all_goals simp

@[simp] theorem mem_acceptBeat (c : Settings) (h : RingHeader) (b : Beat) (a : Tick) :
    (s.acceptBeat c h b a).1.mem = s.mem := by
  simp [State.acceptBeat]

@[simp] theorem mem_takeBeat (c : Settings) (h : RingHeader) (b : Beat) (a : Tick) :
    (s.takeBeat c h b a).1.mem = s.mem := by
  unfold State.takeBeat
  repeat' split
  all_goals simp [State.refusePeriod]

@[simp] theorem mem_framePart (c : Settings) (cut : Bool) (d : Tick) (p : FramePart) :
    (s.framePart c cut d p).mem = s.mem := by
  cases p <;> simp [State.framePart]

@[simp] theorem mem_imageRead (image : List Byte) : (s.imageRead image).mem = s.mem := by
  unfold State.imageRead
  split
  · simp [State.enterRunning]
  · rfl

/-! #### The canonical form -/

/-- The frame memory is in its canonical form. -/
def MemoryForm (s : State) : Prop := Memory.wf s.mem

theorem MemoryForm.of_mem {t : State} (same : t.mem = s.mem) (h : MemoryForm s) : MemoryForm t := by
  unfold MemoryForm
  rwa [same]

theorem MemoryForm.frameStartAt (s : State) (t : Tick) (order : FrameOrder) (h : MemoryForm s) :
    MemoryForm (s.frameStartAt t order) :=
  frameStartAt_keeps (fun _ _ _ _ h => h.of_mem (by simp)) (fun _ _ _ _ _ _ h => h.of_mem (by simp)) t order h

theorem MemoryForm.keptByReception : KeptByReception MemoryForm MemoryForm where
  weaken _ h := h
  counted _ _ _ h := h
  setRingIn _ _ h := h
  occupancy _ _ h := h
  queued _ _ h := h.of_mem (by simp)
  ownReturned _ _ _ _ h := h.of_mem (by simp)
  refuseContent _ _ _ h := h
  takeStanding _ _ _ _ _ _ _ h := h.of_mem (by simp)
  takeLeave _ _ _ _ _ h := h.of_mem (by simp)
  takeBeat _ _ _ _ _ _ h := h.of_mem (by simp)
  frameStartAt := MemoryForm.frameStartAt

/-- A write ends with its line inside the device. -/
theorem MemoryForm.transferDone {c : Settings} {t : Transfer} (inside : t.inside c = true) (h : MemoryForm s) :
    MemoryForm (s.transferDone c t) := by
  cases t with
  | write w =>
    have written : Memory.wf (Memory.writeLine c s.mem w.slot w.line w.pixels) := Memory.wf_writeLine h inside
    exact MemoryForm.of_mem (s := s.setMem (Memory.writeLine c s.mem w.slot w.line w.pixels))
      (by rw [State.transferDone, mem_grant]; rfl) written
  | fetch i line => exact h.of_mem (by simp [State.transferDone])

theorem MemoryForm.keptByOps : KeptByOps MemoryForm MemoryForm where
  weaken _ h := h
  setPending _ _ h := h
  setHeld _ _ h := h
  setNow _ _ h := h
  setLink _ _ h := h
  setReport _ _ h := h
  setLoader _ _ _ _ h := h
  linkError _ h := h
  pollOverrun _ h := h
  noticesTaken _ h := h
  ringCollect _ _ h := h
  ringLoss s h := MemoryForm.keptByReception.ringLoss s h
  ringSignal s h := MemoryForm.keptByReception.ringSignal s h
  ringTruncate s h := MemoryForm.keptByReception.ringTruncate s h
  ringMarker s h := MemoryForm.keptByReception.ringMarker s h
  ringEighthByte s rest h := MemoryForm.keptByReception.ringEighthByte s rest h
  ringLastByte s rest order h := MemoryForm.keptByReception.ringLastByte s rest order h
  sendDone _ h := h.of_mem (by simp)
  nextFrameStart _ order h := nextFrameStart_keeps MemoryForm.frameStartAt order h
  nextLine _ h := h.of_mem (by simp)
  transferDone _ _ _ _ _ inside h := h.transferDone inside
  assemblerLoss _ h := h.of_mem (by simp)
  takeFrameBegin _ _ _ _ h := h.of_mem (by simp)
  takeLine _ _ _ _ _ _ h := h.of_mem (by simp)
  takeFrameEnd _ _ _ _ h := h.of_mem (by simp)
  takeClear s a h := h.of_mem (by rw [takeClear_eq])
  takeLinkReset _ h := h.of_mem (by simp)
  takeWithdraw _ _ _ h := h.of_mem (by simp)
  takeRejoin _ _ _ h := h.of_mem (by simp)

/-- Settles O52: a transfer's write keeps the form, a device reset cuts one inside the device, and nothing else writes. -/
theorem everyStepKeepsMemoryForm : Obligations.EveryStepKeepsMemoryForm :=
  MemoryForm.keptByOps.stepKeeps (fun _ _ _ h => h.of_mem (by simp)) fun _ h => State.wf_deviceReset h

end Sys2Proof

/-! ### The settled configuration (R185) -/

namespace Sys2Proof

open Sys2Proof.Machine

variable {s : State} {x : Option Settings}

/-- The settled configuration is `x`. -/
def SettledIs (x : Option Settings) (s : State) : Prop := s.loader.settled = x

theorem SettledIs.of_frame {t : State} {l : List Part} (f : Frame l s t) (h : SettledIs x s)
    (keeps : .loader ∉ l := by decide) : SettledIs x t := by
  have same : s.loader = t.loader := f.2 .loader keeps
  unfold SettledIs
  rwa [← same]

theorem SettledIs.keptByReception : KeptByReception (SettledIs x) (SettledIs x) where
  weaken _ h := h
  counted _ _ _ h := h
  setRingIn _ _ h := h
  occupancy _ _ h := h
  queued _ _ h := SettledIs.of_frame (s := State.setRingOut _ _) (.chooseOut _) h
  ownReturned s _ q _ h := h.of_frame (.ownReturned s q)
  refuseContent _ _ _ h := h
  takeStanding s c a q y _ _ h := h.of_frame (.takeStanding s c a q y)
  takeLeave s _ a reason _ h := h.of_frame (.takeLeave s a reason)
  takeBeat s c y b a _ h := h.of_frame (.takeBeat s c y b a)
  frameStartAt s t order h := h.of_frame (.frameStartAt s t order)

theorem settled_takeWithdraw : s.takeWithdraw.loader.settled = s.loader.settled := by
  unfold State.takeWithdraw
  split
  · rw [← (Frame.enterWithdrawn s).2 .loader (by decide)]
    rfl
  all_goals rfl

theorem settled_takeRejoin : s.takeRejoin.loader.settled = s.loader.settled := by
  unfold State.takeRejoin
  split <;> rfl

theorem SettledIs.keptByOps : KeptByOps (SettledIs x) (SettledIs x) where
  weaken _ h := h
  setPending _ _ h := h
  setHeld _ _ h := h
  setNow _ _ h := h
  setLink _ _ h := h
  setReport _ _ h := h
  setLoader _ _ _ settled h := settled.trans h
  linkError _ h := h
  pollOverrun _ h := h
  noticesTaken _ h := h
  ringCollect _ _ h := h
  ringLoss _ h := h
  ringSignal s h := SettledIs.keptByReception.ringSignal s h
  ringTruncate s h := SettledIs.keptByReception.ringTruncate s h
  ringMarker s h := SettledIs.keptByReception.ringMarker s h
  ringEighthByte s rest h := SettledIs.keptByReception.ringEighthByte s rest h
  ringLastByte s rest order h := SettledIs.keptByReception.ringLastByte s rest order h
  sendDone s h := h.of_frame (.sendDone s)
  nextFrameStart s order h := h.of_frame (.nextFrameStart s order)
  nextLine s h := h.of_frame (.nextLine s)
  transferDone s c t _ _ _ h := h.of_frame (.transferDone s c t)
  assemblerLoss s h := h.of_frame (.assemblerLoss s)
  takeFrameBegin s _ n _ h := h.of_frame (.takeFrameBegin s n)
  takeLine s c line first payload _ h := h.of_frame (.takeLine s c line first payload)
  takeFrameEnd s c n _ h := h.of_frame (.takeFrameEnd s c n)
  takeClear s a h := h.of_frame (.takeClear s a)
  takeLinkReset s h := h.of_frame (.takeLinkReset s)
  takeWithdraw _ _ _ h := settled_takeWithdraw.trans h
  takeRejoin _ _ _ h := settled_takeRejoin.trans h

/-- Outside CONFIGURING the completion of a read does not arise, and what has been settled stays. -/
theorem settled_of_configReadComplete {e : Elapsed} {bytes : List Byte} {rest : List Instr} {t : State}
    (front : s.pending = .configReadComplete e bytes :: rest) (done : s.loader.station ≠ .configuring)
    (h : step s = .next t) : t.loader.settled = s.loader.settled := by
  have run : onEvent e (State.imageBytesTaken bytes) (s.setPending rest) = .next t := by
    rw [step, front] at h
    exact h
  unfold onEvent State.imageBytesTaken at run
  split at run
  · cases run; rfl
  · rw [if_neg (fun reading => done (by simpa using reading.1))] at run
    cases run
    exact elapse_settled

/-- Settles O60: the Loader takes a configuration at the completion of the read alone, and loses it at a reset alone. -/
theorem settledConfigurationIsKept : Obligations.SettledConfigurationIsKept := by
  intro s t h
  by_cases reset : ∃ e cause rest, s.pending = .deviceReset e cause :: rest
  · exact .inr (.inl reset)
  by_cases read : ∃ e bytes rest, s.pending = .configReadComplete e bytes :: rest
  · by_cases reading : s.loader.station = .configuring
    · exact .inr (.inr ⟨reading, read⟩)
    · obtain ⟨e, bytes, rest, front⟩ := read
      exact .inl (settled_of_configReadComplete front reading h)
  · exact .inl (SettledIs.keptByOps.step (fun e bytes rest front => (read ⟨e, bytes, rest, front⟩).elim)
      (fun e cause rest front => (reset ⟨e, cause, rest, front⟩).elim) rfl t h)

end Sys2Proof

/-! ### The shown frame (R20) -/

namespace Sys2Proof

open Sys2Proof.Machine

variable {s : State} {c : Settings} {f : FrameNo}

/-! #### What leaves the shown frame -/

@[simp] theorem shown_composed (p : Presentation) (x : Epoch) (d : Option FrameNo) :
    (p.composed x d).shown = p.shown := by
  cases d <;> rfl

@[simp] theorem shown_takeUp (p : Presentation) (r : Role) (x y : Epoch) (d : Option FrameNo) :
    (p.takeUp r x y d).shown = p.shown := by
  unfold Presentation.takeUp
  repeat' split
  all_goals rfl

theorem shown_composition (d : Tick) : (s.composition c d).presentation.shown = s.presentation.shown := by
  unfold State.composition
  split
  · dsimp only
    rw [← (Frame.offerBeat _ _).2 .presentation (by decide), ← (Frame.passTicks _ _).2 .presentation (by decide)]
    exact shown_composed _ _ _
  · rfl

theorem shown_acceptBeat (h : RingHeader) (b : Beat) (a : Tick) :
    (s.acceptBeat c h b a).1.presentation.shown = s.presentation.shown := by
  unfold State.acceptBeat
  dsimp only
  rw [State.setPresentation_presentation, shown_takeUp, ← (Frame.timingBeat _ _ _ _ _).2 .presentation (by decide)]
  rfl

theorem shown_takeBeat (h : RingHeader) (b : Beat) (a : Tick) :
    (s.takeBeat c h b a).1.presentation.shown = s.presentation.shown := by
  unfold State.takeBeat
  split
  · rfl
  · split
    · split
      · rw [shown_acceptBeat, ← (Frame.departOrigin _ _).2 .presentation (by decide)]
      · rfl
    · split
      · exact shown_acceptBeat h b a
      · rfl

theorem shown_takeWithdraw : s.takeWithdraw.presentation.shown = s.presentation.shown := by
  unfold State.takeWithdraw
  split
  · unfold State.enterWithdrawn
    dsimp only
    rw [← (Frame.offerLeave _).2 .presentation (by decide), ← (Frame.takeBackStanding _).2 .presentation (by decide),
      State.setRoster_presentation, State.setPresentation_presentation]
    dsimp only
    rw [← (Frame.enterStandby _).2 .presentation (by decide)]
    rfl
  all_goals rfl

/-! #### The presentation step -/

/-- A presentation step shows what it showed, or a frame that is later than the shown one. -/
theorem shown_presentationStep : s.presentationStep.presentation.shown = s.presentation.shown ∨
    ∃ g, s.presentationStep.presentation.shown = some g ∧ ∀ f, s.presentation.shown = some f → laterThan g f = true := by
  unfold State.presentationStep
  split
  · exact .inl rfl
  · next d _ =>
    split
    · unfold State.applyDecision
      split
      · exact .inl rfl
      · split
        · exact .inl rfl
        · next fresh =>
          split
          · refine .inr ⟨d.frame, ?_, fun f shown => by simpa [shown] using fresh⟩
            unfold State.presents
            dsimp only
            rw [← (Frame.grant _).2 .presentation (by decide)]
            rfl
          · exact .inl rfl
    · split <;> exact .inl rfl

/-! #### The shown frame goes forward -/

/-- Frame `f` is shown. -/
def ShownIs (f : FrameNo) (s : State) : Prop := s.presentation.shown = some f

/-- Frame `f` or a later one is shown. -/
def ShownFrom (f : FrameNo) (s : State) : Prop :=
  ∃ g, s.presentation.shown = some g ∧ (g = f ∨ laterThan g f = true)

theorem ShownIs.shownFrom (h : ShownIs f s) : ShownFrom f s := ⟨f, h, .inl rfl⟩

theorem ShownIs.of_frame {t : State} {l : List Part} (k : Frame l s t) (h : ShownIs f s)
    (keeps : .presentation ∉ l := by decide) : ShownIs f t := by
  have same : s.presentation = t.presentation := k.2 .presentation keeps
  unfold ShownIs
  rwa [← same]

/-- The parts of a frame start but the presentation step leave the shown frame. -/
theorem shown_framePart {cut : Bool} {d : Tick} {x : FramePart} (hx : x ≠ .present) :
    (s.framePart c cut d x).presentation.shown = s.presentation.shown := by
  cases x with
  | role => exact congrArg _ ((Frame.roleFrameStart s c).2 .presentation (by decide)).symm
  | settle => rfl
  | present => exact absurd rfl hx
  | firstLine => exact congrArg _ ((Frame.beginLine s c 0).2 .presentation (by decide)).symm
  | compose => exact shown_composition d
  | holds => rfl
  | offer => exact congrArg _ ((Frame.standingOffer s).2 .presentation (by decide)).symm
  | expire => exact congrArg _ ((Frame.expireOld s).2 .presentation (by decide)).symm

theorem ShownIs.startLeads : StartLeads .present (ShownIs f) (ShownFrom f) where
  weaken _ h := h.shownFrom
  timing s c t _ h := h.of_frame (.timingFrameStart s c t)
  before _ _ _ _ _ hx _ h := (shown_framePart hx).trans h
  there s _ _ _ _ h := by
    rcases shown_presentationStep (s := s) with same | ⟨g, shown, later⟩
    · exact ⟨f, same.trans h, .inl rfl⟩
    · exact ⟨g, shown, .inr (later f h)⟩
  after _ _ _ _ _ hx _ h := by
    obtain ⟨g, shown, from_f⟩ := h
    exact ⟨g, (shown_framePart hx).trans shown, from_f⟩

theorem ShownIs.keptByReception : KeptByReception (ShownIs f) (ShownFrom f) where
  weaken _ h := h.shownFrom
  counted _ _ _ h := h
  setRingIn _ _ h := h
  occupancy _ _ h := h
  queued _ _ h := ShownIs.of_frame (s := State.setRingOut _ _) (.chooseOut _) h
  ownReturned s _ q _ h := h.of_frame (.ownReturned s q)
  refuseContent _ _ _ h := h
  takeStanding s c a q y _ _ h := h.of_frame (.takeStanding s c a q y)
  takeLeave s _ a reason _ h := h.of_frame (.takeLeave s a reason)
  takeBeat _ _ y b a _ h := (shown_takeBeat y b a).trans h
  frameStartAt _ t order h := ShownIs.startLeads.frameStartAt t order h

theorem ShownIs.readLeads : ReadLeads (ShownIs f) (ShownFrom f) :=
  fun s image _ h => (h.of_frame (.imageRead s image)).shownFrom

theorem ShownIs.keptByOps : KeptByOps (ShownIs f) (ShownFrom f) where
  weaken _ h := h.shownFrom
  setPending _ _ h := h
  setHeld _ _ h := h
  setNow _ _ h := h
  setLink _ _ h := h
  setReport _ _ h := h
  setLoader _ _ _ _ h := h
  linkError _ h := h
  pollOverrun _ h := h
  noticesTaken _ h := h
  ringCollect _ _ h := h
  ringLoss s h := h.of_frame (.ringLoss s)
  ringSignal s h := h.of_frame (.ringSignal s)
  ringTruncate s h := h.of_frame (.ringTruncate s)
  ringMarker s h := h.of_frame (.ringMarker s)
  ringEighthByte s rest h := ShownIs.keptByReception.ringEighthByte s rest h
  ringLastByte s rest order h := ShownIs.keptByReception.ringLastByte s rest order h
  sendDone s h := h.of_frame (.sendDone s)
  nextFrameStart _ order h := nextFrameStart_leads (fun _ h => h.shownFrom)
    (fun _ t order h => ShownIs.startLeads.frameStartAt t order h) order h
  nextLine s h := h.of_frame (.nextLine s)
  transferDone s c t _ _ _ h := h.of_frame (.transferDone s c t)
  assemblerLoss s h := h.of_frame (.assemblerLoss s)
  takeFrameBegin s _ n _ h := h.of_frame (.takeFrameBegin s n)
  takeLine s c line first payload _ h := h.of_frame (.takeLine s c line first payload)
  takeFrameEnd s c n _ h := h.of_frame (.takeFrameEnd s c n)
  takeClear s a h := by
    rw [takeClear_eq]
    unfold ShownIs
    dsimp only
    split <;> exact h
  takeLinkReset s h := h.of_frame (.takeLinkReset s)
  takeWithdraw _ _ _ h := shown_takeWithdraw.trans h
  takeRejoin s _ _ h := h.of_frame (.takeRejoin s)

/-- A device reset answers the reset values, held in the reset, or nothing but what has passed. -/
theorem deviceReset_held (s : State) : s.deviceReset.held = true := by
  obtain ⟨mem, draws, e⟩ := deviceReset_eq s
  rw [e]
  rfl

/-- Settles O59: only the presentation step of a frame start shows another frame, one that is later than the shown one. -/
theorem shownFrameOnlyGoesForward : Obligations.ShownFrameOnlyGoesForward := by
  intro s t f h shown
  by_cases reset : ∃ e cause rest, s.pending = .deviceReset e cause :: rest
  · obtain ⟨e, cause, rest, front⟩ := reset
    have run : execDeviceReset e cause (s.setPending rest) = .next t := by
      rw [step, front] at h
      exact h
    unfold execDeviceReset at run
    split at run
    · cases run
      exact .inr ⟨e, cause, rest, front, deviceReset_held _⟩
    · exact .inl (ShownIs.keptByOps.onKeptEvent (f := id) (s := s.setPending rest) (fun _ h => h) e shown t run)
  · exact .inl (ShownIs.keptByOps.step (fun _ _ _ _ => ShownIs.readLeads)
      (fun e cause rest front => (reset ⟨e, cause, rest, front⟩).elim) shown t h)

end Sys2Proof

/-! ### The write places and the idle frame memory (R154, R162) -/

namespace Sys2Proof

open Sys2Proof.Machine

variable {s t : State} {c : Settings}

/-- At most four write places are held, and behind an idle frame memory no line write waits. -/
def PlacesLaw (s : State) : Prop := s.placesHeld ≤ 4 ∧ (s.transfer = none → s.ingest.queue = [])

theorem PlacesLaw.of_queue (h : PlacesLaw s) (transfer : t.transfer = s.transfer)
    (queue : t.ingest.queue = s.ingest.queue) : PlacesLaw t := by
  unfold PlacesLaw State.placesHeld at *
  rwa [transfer, queue]

theorem PlacesLaw.blind : Blind [.held, .now, .loader, .timing, .role, .roster, .presentation, .slots, .ringIn, .ringOut,
    .link, .scan, .report, .notices, .mem, .draws] PlacesLaw := by
  intro s t f h
  have transfer : s.transfer = t.transfer := f.2 .transfer (by decide)
  have ingest : s.ingest = t.ingest := f.2 .ingest (by decide)
  exact h.of_queue transfer.symm (ingest ▸ rfl)

/-! #### Grants -/

/-- A grant holds as many places as before, whatever waited. -/
theorem placesHeld_grant : s.grant.placesHeld = s.placesHeld := by
  unfold State.grant
  split
  · rfl
  · next idle =>
    split
    · simp [State.placesHeld, idle]
    · split
      · rfl
      · next waits => simp [State.placesHeld, idle, waits]

/-- Behind a frame memory that stays idle at a grant no line write waits. -/
theorem queue_grant_of_idle (idle : s.grant.transfer = none) : s.grant.ingest.queue = [] := by
  unfold State.grant at idle ⊢
  split at idle
  · next busy => exact absurd idle (by simp [busy])
  · split at idle
    · exact nomatch idle
    · split at idle
      · next nothing => simpa using nothing
      · exact nomatch idle

theorem PlacesLaw.grant (h : s.placesHeld ≤ 4) : PlacesLaw s.grant :=
  ⟨placesHeld_grant.trans_le h, queue_grant_of_idle⟩

theorem PlacesLaw.requestFetch {k : Nat} (h : PlacesLaw s) : PlacesLaw (s.requestFetch k) := .grant h.1

theorem PlacesLaw.beginLine {f : Nat} (h : PlacesLaw s) : PlacesLaw (s.beginLine c f) := by
  unfold State.beginLine
  split
  · split
    · exact h.requestFetch
    · split
      · exact h.requestFetch
      · exact h
  · split
    · dsimp only
      split
      · exact PlacesLaw.requestFetch (s := s.setScan _) h
      · exact h
    · exact h

theorem PlacesLaw.transferDone {x : Transfer} (h : PlacesLaw s) : PlacesLaw (s.transferDone c x) := by
  have ended : (s.setTransfer none).placesHeld ≤ 4 := le_trans (by simp [State.placesHeld]) h.1
  cases x with
  | write w => exact .grant (s := State.setSlots _ _) ended
  | fetch i line => exact .grant (s := State.setScan _ _) ended

theorem PlacesLaw.nextLine (h : PlacesLaw s) : PlacesLaw s.nextLine := by
  unfold State.nextLine
  split
  · dsimp only
    split
    · refine PlacesLaw.beginLine ?_
      split <;> exact h
    · exact h
  · exact h

/-! #### Frame starts -/

theorem PlacesLaw.presentationStep (h : PlacesLaw s) : PlacesLaw s.presentationStep := by
  unfold State.presentationStep
  split
  · exact h
  · split
    · unfold State.applyDecision
      split
      · exact h
      · split
        · exact h
        · split
          · exact .grant (s := State.setScan _ _) h.1
          · exact h
    · split <;> exact h

theorem PlacesLaw.framePart {cut : Bool} {d : Tick} {x : FramePart} (h : PlacesLaw s) :
    PlacesLaw (s.framePart c cut d x) := by
  cases x with
  | role => exact PlacesLaw.blind.keeps (.roleFrameStart s c) h
  | settle => exact h
  | present => exact h.presentationStep
  | firstLine => exact h.beginLine
  | compose => exact PlacesLaw.blind.keeps (.composition s c d) h
  | holds => exact h
  | offer => exact PlacesLaw.blind.keeps (.standingOffer s) h
  | expire => exact PlacesLaw.blind.keeps (.expireOld s) h

theorem PlacesLaw.frameStartAt (s : State) (t : Tick) (order : FrameOrder) (h : PlacesLaw s) :
    PlacesLaw (s.frameStartAt t order) :=
  frameStartAt_keeps (fun s c t _ h => PlacesLaw.blind.keeps (.timingFrameStart s c t) h)
    (fun _ _ _ _ _ _ h => h.framePart) t order h

/-! #### The Frame Assembler -/

/-- An abandonment takes line writes out of the queue. -/
theorem PlacesLaw.abandonSlot {i : Nat} (h : PlacesLaw s) : PlacesLaw (s.abandonSlot i) := by
  refine ⟨?_, fun idle => ?_⟩
  · refine le_trans (Nat.add_le_add_right ?_ _) h.1
    exact List.length_filter_le _ _
  · have empty := h.2 idle
    simp [State.abandonSlot, empty]

theorem PlacesLaw.abandonCurrent (h : PlacesLaw s) : PlacesLaw s.abandonCurrent := by
  unfold State.abandonCurrent
  split
  · exact h.abandonSlot
  · exact h

theorem PlacesLaw.damageCurrent (h : PlacesLaw s) : PlacesLaw s.damageCurrent :=
  PlacesLaw.blind.keeps (.damageCurrent s) h

theorem PlacesLaw.ingestError {u : Assembler} (queue : u.queue = s.ingest.queue) (h : PlacesLaw s) :
    PlacesLaw (s.ingestError u) :=
  h.of_queue rfl queue

theorem PlacesLaw.abandonLine (h : PlacesLaw s) : PlacesLaw s.abandonLine := .damageCurrent (h.ingestError rfl)

theorem PlacesLaw.rangeError (h : PlacesLaw s) : PlacesLaw s.rangeError := .damageCurrent (h.ingestError rfl)

theorem PlacesLaw.orderError (h : PlacesLaw s) : PlacesLaw s.orderError := .damageCurrent (h.ingestError rfl)

theorem PlacesLaw.endInProgress (h : PlacesLaw s) : PlacesLaw s.endInProgress := by
  unfold State.endInProgress
  split
  · exact h.abandonCurrent.ingestError rfl
  · exact h

theorem PlacesLaw.takeFrameBegin {n : FrameNo} (h : PlacesLaw s) : PlacesLaw (s.takeFrameBegin n) := by
  unfold State.takeFrameBegin
  dsimp only
  split
  · exact h.endInProgress.ingestError rfl
  · split
    · exact h.endInProgress.ingestError rfl
    · exact h.endInProgress.of_queue rfl rfl

/-- A line joins the write queue only where a place is free. -/
theorem PlacesLaw.offerLine {line : Nat} {pixels : List Pixel} (h : PlacesLaw s) :
    PlacesLaw (s.offerLine line pixels) := by
  unfold State.offerLine
  dsimp only
  split
  · exact h
  · split
    · next free =>
      refine .grant ?_
      simp only [State.placesHeld, Config.writePlaces] at free
      simp only [State.placesHeld, State.setSlots_ingest, State.setIngest_ingest, List.length_append,
        List.length_singleton, State.setSlots_transfer, State.setIngest_transfer]
      omega
    · exact .damageCurrent (h.ingestError rfl)

theorem PlacesLaw.fillLine {line first : Nat} {before pixels : List Pixel} (h : PlacesLaw s) :
    PlacesLaw (s.fillLine c line first before pixels) := by
  unfold State.fillLine
  split
  · exact h.offerLine
  · exact h

theorem PlacesLaw.placeFresh {line first : Nat} {pixels : List Pixel} (h : PlacesLaw s) :
    PlacesLaw (s.placeFresh c line first pixels) := by
  unfold State.placeFresh
  split
  · exact PlacesLaw.fillLine (s := s.setIngest _) h
  · exact h.orderError

theorem PlacesLaw.takeLine {line first : Nat} {payload : List Byte} (h : PlacesLaw s) :
    PlacesLaw (s.takeLine c line first payload) := by
  unfold State.takeLine State.takeSegment State.placeSegment
  split
  · exact h.ingestError rfl
  · exact h
  · split
    · exact h.rangeError
    · split
      · exact h.ingestError rfl
      · split
        · exact h.rangeError
        · split
          · exact h.placeFresh
          · split
            · exact h.abandonLine.placeFresh
            · split
              · exact h.fillLine
              · exact h.orderError.abandonLine

theorem PlacesLaw.closeFrame {i : Nat} (h : PlacesLaw s) : PlacesLaw (s.closeFrame c i) := by
  unfold State.closeFrame
  split
  · exact h
  · exact h.abandonSlot.ingestError rfl

theorem PlacesLaw.takeFrameEnd {n : FrameNo} (h : PlacesLaw s) : PlacesLaw (s.takeFrameEnd c n) := by
  have unmatched {s : State} (h : PlacesLaw s) : PlacesLaw s.mismatch := h.ingestError rfl
  unfold State.takeFrameEnd
  split
  · exact unmatched h
  · split
    · exact h
    · exact unmatched h
  · split
    · have closed : PlacesLaw (if s.ingest.openLine.isSome then s.abandonLine else s) := by
        split
        · exact h.abandonLine
        · exact h
      dsimp only
      split
      · exact closed.closeFrame
      · exact closed
    · exact unmatched h.abandonCurrent

theorem PlacesLaw.assemblerLoss (h : PlacesLaw s) : PlacesLaw s.assemblerLoss := by
  unfold State.assemblerLoss
  split
  · exact h
  · exact h
  · exact h.endInProgress

theorem PlacesLaw.takeLinkReset (h : PlacesLaw s) : PlacesLaw s.takeLinkReset := by
  refine ⟨le_trans (Nat.add_le_add_right (Nat.zero_le _) _) h.1, fun _ => rfl⟩

theorem PlacesLaw.keptByReception : KeptByReception PlacesLaw PlacesLaw where
  weaken _ h := h
  counted _ _ _ h := h
  setRingIn _ _ h := h
  occupancy _ _ h := h
  queued _ _ h := PlacesLaw.blind.keeps (s := State.setRingOut _ _) (.chooseOut _) h
  ownReturned s _ q _ h := PlacesLaw.blind.keeps (.ownReturned s q) h
  refuseContent _ _ _ h := h
  takeStanding s c a q y _ _ h := PlacesLaw.blind.keeps (.takeStanding s c a q y) h
  takeLeave s _ a reason _ h := PlacesLaw.blind.keeps (.takeLeave s a reason) h
  takeBeat s c y b a _ h := PlacesLaw.blind.keeps (.takeBeat s c y b a) h
  frameStartAt := PlacesLaw.frameStartAt

theorem PlacesLaw.imageRead (image : List Byte) (h : PlacesLaw s) : PlacesLaw (s.imageRead image) := by
  unfold State.imageRead
  split
  · exact PlacesLaw.beginLine (s := State.setLink _ _) h
  · exact h

theorem PlacesLaw.deviceReset (s : State) : PlacesLaw s.deviceReset := by
  obtain ⟨mem, draws, e⟩ := deviceReset_eq s
  rw [e]
  exact ⟨Nat.zero_le 4, fun _ => rfl⟩

theorem PlacesLaw.keptByOps : KeptByOps PlacesLaw PlacesLaw where
  weaken _ h := h
  setPending _ _ h := h
  setHeld _ _ h := h
  setNow _ _ h := h
  setLink _ _ h := h
  setReport _ _ h := h
  setLoader _ _ _ _ h := h
  linkError _ h := h
  pollOverrun _ h := h
  noticesTaken _ h := h
  ringCollect _ _ h := h
  ringLoss s h := PlacesLaw.keptByReception.ringLoss s h
  ringSignal s h := PlacesLaw.keptByReception.ringSignal s h
  ringTruncate s h := PlacesLaw.keptByReception.ringTruncate s h
  ringMarker s h := PlacesLaw.keptByReception.ringMarker s h
  ringEighthByte s rest h := PlacesLaw.keptByReception.ringEighthByte s rest h
  ringLastByte s rest order h := PlacesLaw.keptByReception.ringLastByte s rest order h
  sendDone s h := PlacesLaw.blind.keeps (.sendDone s) h
  nextFrameStart _ order h := nextFrameStart_keeps PlacesLaw.frameStartAt order h
  nextLine _ h := h.nextLine
  transferDone _ _ _ _ _ _ h := h.transferDone
  assemblerLoss _ h := h.assemblerLoss
  takeFrameBegin _ _ _ _ h := h.takeFrameBegin
  takeLine _ _ _ _ _ _ h := h.takeLine
  takeFrameEnd _ _ _ _ h := h.takeFrameEnd
  takeClear _ a h := by
    rw [takeClear_eq]
    refine h.of_queue rfl ?_
    cases a.getLsbD 2 <;> rfl
  takeLinkReset _ h := h.takeLinkReset
  takeWithdraw s _ _ h := PlacesLaw.blind.keeps (.takeWithdraw s) h
  takeRejoin s _ _ h := PlacesLaw.blind.keeps (.takeRejoin s) h

theorem PlacesLaw.stepKeeps : StepKeeps PlacesLaw :=
  PlacesLaw.keptByOps.stepKeeps (fun _ image _ h => h.imageRead image) fun s _ => PlacesLaw.deviceReset s

end Sys2Proof

/-! ### RING OUT and the outstanding list (R118, R124) -/

namespace Sys2Proof

open Sys2Proof.Machine

variable {s t : State} {c : Settings}

/-! #### What RING OUT chooses -/

/-- RING OUT has taken an own packet: its entry joins the tail of the outstanding list, and a full list loses its oldest
(R124). -/
def OwnTaken (s t : State) : Prop :=
  let full : Bool := decide (8 ≤ s.ringOut.outstanding.length)
  ∃ kind bytes, t.ringOut.sending = some ⟨.own kind, bytes⟩ ∧
    t.ringOut.outstanding = (if full then s.ringOut.outstanding.tail else s.ringOut.outstanding) ++
      [⟨s.ringOut.sequence, kind, s.timing.frameCount⟩] ∧
    t.ringOut.lostOwn = (if full then bump s.ringOut.lostOwn else s.ringOut.lostOwn) ∧
    t.ringOut.ring = (if full then .broken else s.ringOut.ring) ∧
    ((full = true ∧ s.ringOut.ring ≠ .broken) → t.notices.getLsbD 3 = true)

theorem ownTaken_ownSent {kind : OwnKind} {delay : BitVec 16} {payload : List Byte} {u : State}
    (outstanding : u.ringOut.outstanding = s.ringOut.outstanding) (sequence : u.ringOut.sequence = s.ringOut.sequence)
    (lost : u.ringOut.lostOwn = s.ringOut.lostOwn) (ring : u.ringOut.ring = s.ringOut.ring)
    (count : u.timing.frameCount = s.timing.frameCount) : OwnTaken s (ownSent c kind delay payload u) := by
  unfold OwnTaken
  rw [← outstanding, ← sequence, ← lost, ← ring, ← count]
  refine ⟨kind, _, rfl, rfl, rfl, rfl, fun full => ?_⟩
  have raised : (ownSent c kind delay payload u).notices = u.notices ||| 0x0008#16 := if_pos full
  rw [raised]
  simp

theorem OwnTaken.of_ringOut {t' : State} (h : OwnTaken s t) (after : t'.ringOut = t.ringOut)
    (notice : t.notices.getLsbD 3 = true → t'.notices.getLsbD 3 = true) : OwnTaken s t' := by
  unfold OwnTaken at *
  rw [after]
  obtain ⟨kind, bytes, sent, joined, counted, state, raised⟩ := h
  exact ⟨kind, bytes, sent, joined, counted, state, fun k => notice (raised k)⟩

theorem ringOut_ownStandingDeparts (q : Byte) : (s.ownStandingDeparts q).ringOut = s.ringOut :=
  ((Frame.ownStandingDeparts s q).2 .ringOut (by decide)).symm

/-- The departure of the own STANDING takes no notice away. -/
theorem holds_ownStandingDeparts {q : Byte} {n : Nat} (h : s.notices.getLsbD n = true) :
    (s.ownStandingDeparts q).notices.getLsbD n = true := by
  unfold State.ownStandingDeparts
  dsimp only
  split
  · simp [State.raise, h]
  · exact h

/-- The choice of RING OUT: it goes on, takes the head of the forward queue, takes an own packet, or stays idle with
nothing to take. -/
inductive OutChoice (s : State) : State → Prop
  | busy (sending : s.ringOut.sending ≠ none) : OutChoice s s
  | forwarded (p : RingPacket) (rest : List RingPacket) (sending : s.ringOut.sending = none)
      (queue : s.ringOut.queue = p :: rest) : OutChoice s (s.departForwarded p rest)
  | own (t : State) (sending : s.ringOut.sending = none) (queue : s.ringOut.queue = [])
      (settled : s.loader.settled ≠ none) (taken : OwnTaken s t) : OutChoice s t
  | idle (sending : s.ringOut.sending = none) (queue : s.ringOut.queue = [])
      (nothing : s.loader.settled = none ∨
        (s.ringOut.leave = false ∧ s.ringOut.beat = none ∧ s.ringOut.standing = false)) : OutChoice s s

theorem outChoice_chooseOut (s : State) : OutChoice s s.chooseOut := by
  cases sending : s.ringOut.sending with
  | some x =>
    rw [chooseOut_of_sending sending]
    exact .busy (by simp [sending])
  | none =>
    cases queue : s.ringOut.queue with
    | cons p rest =>
      have departs : s.chooseOut = s.departForwarded p rest := by simp [State.chooseOut, sending, queue]
      rw [departs]
      exact .forwarded p rest sending queue
    | nil =>
      cases settled : s.loader.settled with
      | none =>
        have stays : s.chooseOut = s := by simp [State.chooseOut, sending, queue, settled]
        rw [stays]
        exact .idle sending queue (.inl settled)
      | some c =>
        have own (t : State) (taken : OwnTaken s t) : OutChoice s t := .own t sending queue (by simp [settled]) taken
        cases leave : s.ringOut.leave with
        | true =>
          rw [chooseOut_leave sending queue settled leave]
          exact own _ (ownTaken_ownSent rfl rfl rfl rfl rfl)
        | false =>
          cases beat : s.ringOut.beat with
          | some b =>
            rw [chooseOut_beat sending queue settled leave beat]
            exact own _ (ownTaken_ownSent rfl rfl rfl rfl rfl)
          | none =>
            cases standing : s.ringOut.standing with
            | true =>
              have taken : OwnTaken s (ownSent c .standing 0 (ownSaid c s).payload
                  { s with ringOut := { s.ringOut with standing := false } }) := ownTaken_ownSent rfl rfl rfl rfl rfl
              rw [chooseOut_standing sending queue settled leave beat standing]
              exact own _ (taken.of_ringOut (ringOut_ownStandingDeparts _) holds_ownStandingDeparts)
            | false =>
              rw [chooseOut_idle sending queue leave beat standing]
              exact .idle sending queue (.inr ⟨leave, beat, standing⟩)

/-! #### The law -/

/-- No local place is filled. -/
def PlacesEmpty (s : State) : Prop :=
  s.ringOut.leave = false ∧ s.ringOut.beat = none ∧ s.ringOut.standing = false

/-- At most eight entries are outstanding, and behind an idle RING OUT nothing waits. -/
def SendLaw (s : State) : Prop :=
  s.ringOut.outstanding.length ≤ 8 ∧
    (s.ringOut.sending = none → s.ringOut.queue = [] ∧ PlacesEmpty s)

theorem SendLaw.of_ringOut (h : SendLaw s) (same : t.ringOut = s.ringOut) : SendLaw t := by
  unfold SendLaw PlacesEmpty at *
  rwa [same]

theorem SendLaw.blind : Blind [.held, .now, .loader, .timing, .role, .roster, .presentation, .slots, .ringIn, .link,
    .ingest, .transfer, .scan, .report, .notices, .mem, .draws] SendLaw :=
  fun _ _ f h => h.of_ringOut (f.2 .ringOut (by decide)).symm

/-- A choice leaves nothing behind an idle RING OUT, if a local place is filled under a configuration alone. -/
theorem SendLaw.chooseOut (room : s.ringOut.outstanding.length ≤ 8) (empty : s.loader.settled = none → PlacesEmpty s) :
    SendLaw s.chooseOut := by
  generalize chosen : s.chooseOut = t
  have choice : OutChoice s t := chosen ▸ outChoice_chooseOut s
  cases choice with
  | busy sending => exact ⟨room, fun idle => (sending idle).elim⟩
  | forwarded p rest =>
    rw [departForwarded_eq]
    exact ⟨room, nofun⟩
  | own t _ _ _ taken =>
    obtain ⟨kind, bytes, sending, outstanding, -⟩ := taken
    refine ⟨?_, fun idle => nomatch sending.symm.trans idle⟩
    rw [outstanding]
    split
    · simp; omega
    · next short => simp at short ⊢; omega
  | idle _ queue nothing => exact ⟨room, fun _ => ⟨queue, nothing.elim empty id⟩⟩

theorem SendLaw.chooseOut_of_settled (room : s.ringOut.outstanding.length ≤ 8) (settled : s.loader.settled = some c) :
    SendLaw s.chooseOut :=
  .chooseOut room fun none => nomatch settled.symm.trans none

/-! #### The outstanding list -/

/-- Entries that leave the outstanding list leave the rest of RING OUT but the counter and the ring state. -/
theorem SendLaw.outstanding {x : RingTransmitter} (h : SendLaw s) (shorter : x.outstanding.length ≤ 8)
    (sending : x.sending = s.ringOut.sending) (queue : x.queue = s.ringOut.queue) (leave : x.leave = s.ringOut.leave)
    (beat : x.beat = s.ringOut.beat) (standing : x.standing = s.ringOut.standing) : SendLaw (s.setRingOut x) := by
  unfold SendLaw PlacesEmpty at *
  rw [State.setRingOut_ringOut, sending, queue, leave, beat, standing]
  exact ⟨shorter, h.2⟩

theorem SendLaw.setRing {r : RingState} (h : SendLaw s) : SendLaw (s.setRing r) := by
  unfold State.setRing
  dsimp only
  split <;> exact h.outstanding h.1 rfl rfl rfl rfl rfl

theorem SendLaw.expireEntries {n : Nat} {l : List Outstanding} (shorter : l.length ≤ 8) (h : SendLaw s) :
    SendLaw (s.expireEntries n l) := by
  unfold State.expireEntries
  split
  · exact h
  · exact .setRing (.outstanding h shorter rfl rfl rfl rfl rfl)

theorem SendLaw.expireOld (h : SendLaw s) : SendLaw s.expireOld :=
  h.expireEntries ((List.length_filter_le _ _).trans h.1)

theorem SendLaw.ownReturned {q : Byte} (h : SendLaw s) : SendLaw (s.ownReturned q) := by
  unfold State.ownReturned
  split
  · refine .setRing (.outstanding h ?_ rfl rfl rfl rfl rfl)
    simp only [List.length_drop]
    exact (Nat.sub_le _ _).trans h.1
  · exact h.outstanding h.1 rfl rfl rfl rfl rfl

/-! #### The local places -/

theorem SendLaw.takeBackBeat (h : SendLaw s) : SendLaw s.takeBackBeat := by
  unfold State.takeBackBeat
  split
  · refine ⟨h.1, fun idle => ?_⟩
    obtain ⟨queue, leave, -, standing⟩ := h.2 idle
    exact ⟨queue, leave, rfl, standing⟩
  · exact h

theorem SendLaw.departOrigin {r : Role} (h : SendLaw s) : SendLaw (s.departOrigin r) :=
  have timed : SendLaw (s.setRole { s.role with role := r, yields := bump s.role.yields }).timingDepart :=
    SendLaw.blind.keeps (.timingDepart (s.setRole _)) h
  timed.takeBackBeat.of_ringOut rfl

theorem SendLaw.offerStanding (settled : s.loader.settled = some c) (h : SendLaw s) : SendLaw s.offerStanding :=
  .chooseOut_of_settled (s := s.setRingOut _) h.1 settled

theorem SendLaw.composition {d : Tick} (settled : s.loader.settled = some c) (h : SendLaw s) :
    SendLaw (s.composition c d) := by
  unfold State.composition
  split
  · refine .chooseOut_of_settled (c := c) (s := State.setRingOut _ _) ?_ ?_
    · rw [State.setRingOut_ringOut]
      dsimp only
      rw [← (Frame.passTicks _ d).2 .ringOut (by decide)]
      exact h.1
    · rw [State.setRingOut_loader, passTicks_loader]
      exact settled
  · exact h

theorem SendLaw.takeBeat {x : RingHeader} {b : Beat} {a : Tick} (h : SendLaw s) : SendLaw (s.takeBeat c x b a).1 := by
  unfold State.takeBeat
  split
  · exact h
  · split
    · split
      · exact SendLaw.blind.keeps (.acceptBeat _ c x b a) h.departOrigin
      · exact h
    · split
      · exact SendLaw.blind.keeps (.acceptBeat s c x b a) h
      · exact h

theorem SendLaw.capableMember {a : Address} (h : SendLaw s) : SendLaw (s.capableMember c a) := by
  unfold State.capableMember
  split
  · exact .of_ringOut h.departOrigin rfl
  · exact h

theorem SendLaw.takeStanding {a : Address} {q : Byte} {x : Standing} (h : SendLaw s) :
    SendLaw (s.takeStanding c a q x) := by
  unfold State.takeStanding
  split
  · exact h
  · split
    · exact h
    · split
      · exact h
      · split
        · dsimp only
          split
          · exact SendLaw.capableMember (s := s.storeEntry _) h
          · exact h
        · dsimp only
          split
          · exact SendLaw.capableMember (s := State.raise _ _) h
          · exact h

/-! #### Frame starts and what a WITHDRAW leaves -/

theorem SendLaw.framePart {cut : Bool} {d : Tick} {x : FramePart} (settled : s.loader.settled = some c)
    (h : SendLaw s) : SendLaw (s.framePart c cut d x) := by
  cases x with
  | role => exact SendLaw.blind.keeps (.roleFrameStart s c) h
  | settle => exact h
  | present => exact SendLaw.blind.keeps (.presentationStep s) h
  | firstLine => exact SendLaw.blind.keeps (.beginLine s c 0) h
  | compose => exact h.composition settled
  | holds => exact h
  | offer =>
    change SendLaw s.standingOffer
    unfold State.standingOffer
    split
    · exact h.offerStanding settled
    all_goals exact h
  | expire => exact h.expireOld

theorem SendLaw.frameStartAt (s : State) (t : Tick) (order : FrameOrder) (h : SendLaw s) :
    SendLaw (s.frameStartAt t order) :=
  frameStartAt_keeps (fun s c t _ h => SendLaw.blind.keeps (.timingFrameStart s c t) h)
    (fun _ _ _ _ _ settled h => h.framePart settled) t order h

theorem outstanding_takeBackStanding : s.takeBackStanding.ringOut.outstanding = s.ringOut.outstanding := by
  unfold State.takeBackStanding
  split <;> rfl

theorem SendLaw.enterStandby (h : SendLaw s) : SendLaw s.enterStandby := by
  unfold State.enterStandby
  split
  · exact .of_ringOut h.departOrigin rfl
  · exact h

theorem SendLaw.enterWithdrawn (settled : s.loader.settled = some c) (h : SendLaw s) : SendLaw s.enterWithdrawn := by
  have standby : SendLaw (s.setLoader { s.loader with station := .withdrawn }).enterStandby := .enterStandby h
  refine .chooseOut_of_settled (c := c) (s := State.setRingOut _ _) ?_ ?_
  · rw [State.setRingOut_ringOut]
    dsimp only
    rw [outstanding_takeBackStanding]
    exact standby.1
  · rw [State.setRingOut_loader, ← (Frame.takeBackStanding _).2 .loader (by decide), State.setRoster_loader,
      State.setPresentation_loader, ← (Frame.enterStandby _).2 .loader (by decide)]
    exact settled

/-! #### With the law of the state before RUNNING -/

/-- The law with that of the state before RUNNING, under which no local place is filled. -/
def QuietSendLaw (s : State) : Prop := SendLaw s ∧ QuietLaw s

theorem QuietLaw.placesEmpty (h : QuietLaw s) (unsettled : s.loader.settled = none) : PlacesEmpty s := by
  have quiet : s.active = none := by
    unfold State.active
    split <;> simp [unsettled]
  obtain ⟨-, -, -, -, -, -, -, -, -, leave, beat, standing, -⟩ := h quiet
  exact ⟨leave, beat, standing⟩

theorem QuietSendLaw.queued (w : RingPacket) (h : QuietSendLaw s) :
    QuietSendLaw (s.setRingOut { s.ringOut with queue := s.ringOut.queue ++ [w] }).chooseOut :=
  ⟨.chooseOut (s := s.setRingOut _) h.1.1 h.2.placesEmpty, QuietLaw.keptByReception.queued s w h.2⟩

theorem QuietSendLaw.keptByReception : KeptByReception QuietSendLaw QuietSendLaw where
  weaken _ h := h
  counted _ _ _ h := h
  setRingIn _ _ h := h
  occupancy _ _ h := h
  queued _ w h := h.queued w
  ownReturned s c q active h := ⟨h.1.ownReturned, QuietLaw.keptByReception.ownReturned s c q active h.2⟩
  refuseContent s c active h := ⟨h.1, QuietLaw.keptByReception.refuseContent s c active h.2⟩
  takeStanding s c a q x active k h :=
    ⟨h.1.takeStanding, QuietLaw.keptByReception.takeStanding s c a q x active k h.2⟩
  takeLeave s c a reason active h :=
    ⟨SendLaw.blind.keeps (.takeLeave s a reason) h.1, QuietLaw.keptByReception.takeLeave s c a reason active h.2⟩
  takeBeat s c x b a active h := ⟨h.1.takeBeat, QuietLaw.keptByReception.takeBeat s c x b a active h.2⟩
  frameStartAt s t order h := ⟨h.1.frameStartAt s t order, h.2.frameStartAt s t order⟩

theorem QuietSendLaw.sendDone (h : QuietSendLaw s) : QuietSendLaw s.sendDone := by
  refine ⟨?_, QuietLaw.keptByOps.sendDone s h.2⟩
  unfold State.sendDone
  split
  · exact h.1
  · exact .chooseOut (s := s.setRingOut _) h.1.1 h.2.placesEmpty

theorem QuietSendLaw.deviceReset (s : State) : QuietSendLaw s.deviceReset := by
  refine ⟨?_, QuietLaw.deviceReset s⟩
  obtain ⟨mem, draws, e⟩ := deviceReset_eq s
  rw [e]
  exact ⟨Nat.zero_le 8, fun _ => ⟨rfl, rfl, rfl, rfl⟩⟩

theorem QuietSendLaw.keptByOps : KeptByOps QuietSendLaw QuietSendLaw where
  weaken _ h := h
  setPending _ _ h := h
  setHeld _ _ h := h
  setNow _ _ h := h
  setLink _ _ h := h
  setReport _ _ h := h
  setLoader s v station settled h := ⟨h.1, QuietLaw.keptByOps.setLoader s v station settled h.2⟩
  linkError s h := ⟨h.1, QuietLaw.keptByOps.linkError s h.2⟩
  pollOverrun s h := ⟨h.1, QuietLaw.keptByOps.pollOverrun s h.2⟩
  noticesTaken s h := ⟨h.1, QuietLaw.keptByOps.noticesTaken s h.2⟩
  ringCollect _ _ h := h
  ringLoss s h := QuietSendLaw.keptByReception.ringLoss s h
  ringSignal s h := QuietSendLaw.keptByReception.ringSignal s h
  ringTruncate s h := QuietSendLaw.keptByReception.ringTruncate s h
  ringMarker s h := QuietSendLaw.keptByReception.ringMarker s h
  ringEighthByte s rest h := QuietSendLaw.keptByReception.ringEighthByte s rest h
  ringLastByte s rest order h := QuietSendLaw.keptByReception.ringLastByte s rest order h
  sendDone _ h := h.sendDone
  nextFrameStart _ order h :=
    nextFrameStart_keeps (fun s t order h => QuietSendLaw.keptByReception.frameStartAt s t order h) order h
  nextLine s h := ⟨SendLaw.blind.keeps (.nextLine s) h.1, QuietLaw.keptByOps.nextLine s h.2⟩
  transferDone s c t transfer settled inside h :=
    ⟨SendLaw.blind.keeps (.transferDone s c t) h.1, QuietLaw.keptByOps.transferDone s c t transfer settled inside h.2⟩
  assemblerLoss s h := ⟨SendLaw.blind.keeps (.assemblerLoss s) h.1, QuietLaw.keptByOps.assemblerLoss s h.2⟩
  takeFrameBegin s c n active h :=
    ⟨SendLaw.blind.keeps (.takeFrameBegin s n) h.1, QuietLaw.keptByOps.takeFrameBegin s c n active h.2⟩
  takeLine s c line first payload active h :=
    ⟨SendLaw.blind.keeps (.takeLine s c line first payload) h.1,
      QuietLaw.keptByOps.takeLine s c line first payload active h.2⟩
  takeFrameEnd s c n active h :=
    ⟨SendLaw.blind.keeps (.takeFrameEnd s c n) h.1, QuietLaw.keptByOps.takeFrameEnd s c n active h.2⟩
  takeClear s a h := by
    refine ⟨?_, h.2.takeClear a⟩
    have cleared : (s.takeClear a).ringOut = if a.getLsbD 0 then s.ringOut.cleared else s.ringOut := by
      rw [takeClear_eq]
    refine .of_ringOut (s := s.setRingOut (if a.getLsbD 0 then s.ringOut.cleared else s.ringOut)) ?_ cleared
    split
    · exact h.1.outstanding h.1.1 rfl rfl rfl rfl rfl
    · exact h.1
  takeLinkReset s h := ⟨SendLaw.blind.keeps (.takeLinkReset s) h.1, h.2.takeLinkReset⟩
  takeWithdraw s c active h := by
    refine ⟨?_, QuietLaw.keptByOps.takeWithdraw s c active h.2⟩
    unfold State.takeWithdraw
    split
    · exact h.1.enterWithdrawn (settled_of_active active)
    all_goals exact h.1
  takeRejoin s c active h := ⟨SendLaw.blind.keeps (.takeRejoin s) h.1, QuietLaw.keptByOps.takeRejoin s c active h.2⟩

theorem QuietSendLaw.stepKeeps : StepKeeps QuietSendLaw :=
  QuietSendLaw.keptByOps.stepKeeps
    (fun s image reading h => ⟨SendLaw.blind.keeps (.imageRead s image) h.1, h.2.imageRead reading⟩)
    fun s _ => QuietSendLaw.deviceReset s

/-- Settles O58: the write places and the frame memory on one side, RING OUT and its list on the other. -/
theorem everyStepKeepsListLimits : Obligations.EveryStepKeepsListLimits := by
  intro s h t ht
  obtain ⟨outstanding, places, ⟨idleRing, idleMemory⟩, quiet⟩ := h
  obtain ⟨⟨outstanding, idleRing⟩, quiet⟩ := QuietSendLaw.stepKeeps s ⟨⟨outstanding, idleRing⟩, quiet⟩ t ht
  obtain ⟨places, idleMemory⟩ := PlacesLaw.stepKeeps s ⟨places, idleMemory⟩ t ht
  exact ⟨outstanding, places, ⟨idleRing, idleMemory⟩, quiet⟩

end Sys2Proof

/-! ### The slot table and its line writes (R2, R5, R16, R20, R154) -/

namespace Sys2Proof

open Sys2Proof.Machine

/-! #### The laws, one by one -/

/-- The line write of a transfer in progress. -/
def Transfer.held : Option Transfer → List LineWrite
  | some (.write w) => [w]
  | some (.fetch _ _) => []
  | none => []

theorem writesHeld_eq (s : State) : writesHeld s = Transfer.held s.transfer ++ s.ingest.queue := by
  unfold writesHeld Transfer.held
  rcases s.transfer with _ | w | _ <;> rfl

/-- Of two line writes to different slots that still receive, the second is for a later frame. -/
def InOrder (m : List Slot) (v w : LineWrite) : Prop :=
  ∀ r q, v.slot ≠ w.slot → m[v.slot]? = some r → m[w.slot]? = some q → receivesFrame r → receivesFrame q → laterFrame q r

/-- The laws of the slots and of the line writes, by INDEX, on what they read: the table, the complete list, the shown
frame, the Frame Assembler's slot and accounted set, its write queue and the transfer in progress. -/
structure SlotFacts (m : List Slot) (complete : List FrameNo) (shown : Option FrameNo) (slot : Option Nat)
    (accounted : List Nat) (queue : List LineWrite) (transfer : Option Transfer) : Prop where
  free_iff : ∀ (i : Nat) (r : Slot), m[i]? = some r → (r.state = .free ↔ r.frame = none)
  apart : ∀ (i j : Nat) (r q : Slot), i ≠ j → m[i]? = some r → m[j]? = some q → holdsFrame r → holdsFrame q →
    r.frame ≠ q.frame
  nodup : complete.Nodup
  listed : ∀ f, f ∈ complete ↔ ∃ (i : Nat) (r : Slot), m[i]? = some r ∧ r.state = .complete ∧ r.frame = some f
  of_shown : ∀ (i : Nat) (r : Slot), m[i]? = some r → r.state = .shown → r.frame = shown
  filling_iff : ∀ (i : Nat) (r : Slot), m[i]? = some r → (r.state = .filling ↔ slot = some i)
  inside : ∀ i, slot = some i → i < m.length
  ordered : complete.Pairwise (fun f g => laterThan g f = true)
  later_shown : ∀ f, shown = some f → ∀ (i : Nat) (r : Slot), m[i]? = some r → receivesFrame r ∨ r.state = .complete →
    ∃ g, r.frame = some g ∧ laterThan g f = true
  later_complete : ∀ (i j : Nat) (r q : Slot), m[i]? = some r → m[j]? = some q → r.state = .complete →
    receivesFrame q → laterFrame q r
  later_closing : ∀ (i j : Nat) (r q : Slot), m[i]? = some r → m[j]? = some q → r.state = .closing →
    q.state = .filling → laterFrame q r
  pending : ∀ (i : Nat) (r : Slot), m[i]? = some r → receivesFrame r →
    r.pending = (Transfer.held transfer ++ queue).countP (fun w => w.slot == i)
  closing_waits : ∀ (i : Nat) (r : Slot), m[i]? = some r → r.state = .closing → 0 < r.pending
  queued : ∀ w ∈ queue, ∃ r, m[w.slot]? = some r ∧ receivesFrame r
  writing : ∀ w, transfer = some (.write w) → ∃ r, m[w.slot]? = some r ∧ (receivesFrame r ∨ r.state = .draining)
  in_order : (Transfer.held transfer ++ queue).Pairwise (InOrder m)
  written : ∀ (i : Nat) (r : Slot), slot = some i → m[i]? = some r → ∀ l ∈ accounted,
    l ∈ r.written ∨ ∃ w ∈ Transfer.held transfer ++ queue, w.slot = i ∧ w.line = l
  began : ∀ (i : Nat) (r : Slot), m[i]? = some r → receivesFrame r → r.written ≠ [] →
    ∀ w ∈ Transfer.held transfer ++ queue, w.slot ≠ i → ∀ q, m[w.slot]? = some q → receivesFrame q → laterFrame q r

/-- How many frames are complete, and the sizes that a settled configuration fixes. -/
def SlotSizes (m : List Slot) (complete : List FrameNo) (settled : Option Settings) : Prop :=
  complete.length ≤ 3 ∧ ∀ c, settled = some c →
    complete.length ≤ c.slotCount - 1 ∧ 1 ≤ c.h ∧ 3 ≤ c.slotCount ∧ c.slotCount ≤ 4 ∧ m.length = c.slotCount

theorem SlotSizes.of_length {m m' : List Slot} {complete complete' : List FrameNo} {settled : Option Settings}
    (h : SlotSizes m complete settled) (table : m'.length = m.length) (fewer : complete'.length ≤ complete.length) :
    SlotSizes m' complete' settled := by
  refine ⟨fewer.trans h.1, fun c k => ?_⟩
  obtain ⟨one_fewer, rest⟩ := h.2 c k
  rw [table]
  exact ⟨fewer.trans one_fewer, rest⟩

/-- The facts of a state's slots and line writes. -/
def SlotFacts.At (s : State) : Prop :=
  SlotFacts s.slots.table s.slots.complete s.presentation.shown s.ingest.slot s.ingest.accounted s.ingest.queue
    s.transfer

/-- The laws of the slot table and of the line writes, restated. -/
def SlotInvariant (s : State) : Prop :=
  SlotFacts.At s ∧ (s.ingest.slot.isSome = true ↔ s.ingest.state = .inFrame) ∧
    SlotSizes s.slots.table s.slots.complete s.loader.settled

theorem slotInvariant_iff {s : State} : SlotInvariant s ↔ SlotLaw s ∧ WriteLaw s := by
  constructor
  · rintro ⟨h, frame, three, sizes⟩
    refine ⟨⟨h.free_iff, h.apart, h.nodup, h.listed, h.of_shown, h.filling_iff, h.inside, frame, h.ordered, three,
      fun c k => (sizes c k).1, ?_, ?_⟩, ?_⟩
    · intro f k r hr
      obtain ⟨i, hi⟩ := List.getElem?_of_mem hr
      exact h.later_shown f k i r hi
    · intro r hr q hq
      obtain ⟨i, hi⟩ := List.getElem?_of_mem hr
      obtain ⟨j, hj⟩ := List.getElem?_of_mem hq
      exact ⟨h.later_complete i j r q hi hj, h.later_closing i j r q hi hj⟩
    · unfold WriteLaw
      rw [writesHeld_eq]
      exact ⟨fun c k => (sizes c k).2, fun i r hi k => ⟨h.pending i r hi k, h.closing_waits i r hi⟩, h.queued,
        h.writing, h.in_order, h.written, h.began⟩
  · rintro ⟨⟨free, apart, nodup, listed, shown, filling, inside, frame, ordered, three, fewer, later, after⟩, write⟩
    unfold WriteLaw at write
    rw [writesHeld_eq] at write
    obtain ⟨sizes, pending, queued, writing, order, written, began⟩ := write
    refine ⟨⟨free, apart, nodup, listed, shown, filling, inside, ordered, ?_, ?_, ?_, fun i r hi k => (pending i r hi k).1,
      fun i r hi k => (pending i r hi (.inr k)).2 k, queued, writing, order, written, began⟩, frame, three,
      fun c k => ⟨fewer c k, sizes c k⟩⟩
    · exact fun f k i r hi => later f k r (List.mem_of_getElem? hi)
    · exact fun i j r q hi hj => (after r (List.mem_of_getElem? hi) q (List.mem_of_getElem? hj)).1
    · exact fun i j r q hi hj => (after r (List.mem_of_getElem? hi) q (List.mem_of_getElem? hj)).2

end Sys2Proof

/-! ### What becomes of the slot table -/

namespace Sys2Proof

open Sys2Proof.Machine

variable {m m' : List Slot} {complete complete' : List FrameNo} {shown : Option FrameNo} {slot slot' : Option Nat}
  {accounted accounted' : List Nat} {queue queue' : List LineWrite} {transfer transfer' : Option Transfer}

/-! #### Slots that lose their frame -/

/-- A record that receives nothing and holds no frame for display: FREE, or DRAINING with its frame. -/
def Dropped (r : Slot) : Prop :=
  (r.state = .free ∧ r.frame = none) ∨ (r.state = .draining ∧ r.frame ≠ none)

theorem dropped_freed : Dropped .freed := .inl ⟨rfl, rfl⟩

theorem not_holdsFrame_of_dropped {r : Slot} (h : Dropped r) : ¬ holdsFrame r := by
  rcases h with ⟨h, -⟩ | ⟨h, -⟩ <;> simp [holdsFrame, h]

theorem holdsFrame_of_receivesFrame {r : Slot} (h : receivesFrame r) : holdsFrame r :=
  h.elim .inl fun k => .inr (.inl k)

/-- Some slots lose their frame, with the line writes to those that still received it; the others stay. -/
theorem SlotFacts.drop (h : SlotFacts m complete shown slot accounted queue transfer)
    (kept : ∀ (i : Nat) (r : Slot), m'[i]? = some r → m[i]? = some r ∨ Dropped r) (length : m'.length = m.length)
    (fewer : complete'.Sublist complete)
    (listed : ∀ f, f ∈ complete' ↔ ∃ (i : Nat) (r : Slot), m'[i]? = some r ∧ r.state = .complete ∧ r.frame = some f)
    (current : (slot' = slot ∧ accounted' = accounted) ∨ slot' = none)
    (filling : ∀ (i : Nat) (r : Slot), m'[i]? = some r → (r.state = .filling ↔ slot' = some i))
    (sub : (Transfer.held transfer' ++ queue').Sublist (Transfer.held transfer ++ queue))
    (same : ∀ (i : Nat) (r : Slot), m'[i]? = some r → receivesFrame r →
      (Transfer.held transfer' ++ queue').filter (fun w => w.slot == i) =
        (Transfer.held transfer ++ queue).filter (fun w => w.slot == i))
    (queued : ∀ w ∈ queue', ∃ r, m'[w.slot]? = some r ∧ receivesFrame r)
    (writing : ∀ w, transfer' = some (.write w) →
      ∃ r, m'[w.slot]? = some r ∧ (receivesFrame r ∨ r.state = .draining)) :
    SlotFacts m' complete' shown slot' accounted' queue' transfer' := by
  have back (i : Nat) (r : Slot) (hi : m'[i]? = some r) (hr : holdsFrame r) : m[i]? = some r :=
    (kept i r hi).resolve_right fun k => not_holdsFrame_of_dropped k hr
  have receiving (i : Nat) (r : Slot) (hi : m'[i]? = some r) (hr : receivesFrame r) : m[i]? = some r :=
    back i r hi (holdsFrame_of_receivesFrame hr)
  have done (i : Nat) (r : Slot) (hi : m'[i]? = some r) (hr : r.state = .complete) : m[i]? = some r :=
    back i r hi (.inr (.inr (.inl hr)))
  refine ⟨?_, ?_, h.nodup.sublist fewer, listed, ?_, filling, ?_, h.ordered.sublist fewer, ?_, ?_, ?_, ?_, ?_, queued,
    writing, ?_, ?_, ?_⟩
  · intro i r hi
    rcases kept i r hi with old | ⟨state, frame⟩ | ⟨state, frame⟩
    · exact h.free_iff i r old
    · simp [state, frame]
    · simp [state, frame]
  · exact fun i j r q ne hi hj hr hq => h.apart i j r q ne (back i r hi hr) (back j q hj hq) hr hq
  · exact fun i r hi hr => h.of_shown i r (back i r hi (.inr (.inr (.inr hr)))) hr
  · intro i hs
    rw [length]
    rcases current with ⟨e, -⟩ | e
    · exact h.inside i (e ▸ hs)
    · exact nomatch e.symm.trans hs
  · intro f hf i r hi hr
    refine h.later_shown f hf i r ?_ hr
    exact hr.elim (receiving i r hi) (done i r hi)
  · exact fun i j r q hi hj hr hq => h.later_complete i j r q (done i r hi hr) (receiving j q hj hq) hr hq
  · exact fun i j r q hi hj hr hq =>
      h.later_closing i j r q (receiving i r hi (.inr hr)) (receiving j q hj (.inl hq)) hr hq
  · intro i r hi hr
    rw [List.countP_eq_length_filter, same i r hi hr, ← List.countP_eq_length_filter]
    exact h.pending i r (receiving i r hi hr) hr
  · exact fun i r hi hr => h.closing_waits i r (receiving i r hi (.inr hr)) hr
  · refine (h.in_order.sublist sub).imp fun {v w} order r q ne hr hq kr kq => ?_
    exact order r q ne (receiving _ r hr kr) (receiving _ q hq kq) kr kq
  · intro i r hs hi l hl
    rcases current with ⟨e, a⟩ | e
    · subst e a
      have fills : receivesFrame r := .inl ((filling i r hi).2 hs)
      refine (h.written i r hs (receiving i r hi fills) l hl).imp_right fun ⟨w, hw, at_i, line⟩ => ?_
      have mem : w ∈ (Transfer.held transfer ++ queue).filter (fun w => w.slot == i) := by simpa [at_i] using hw
      rw [← same i r hi fills] at mem
      exact ⟨w, (List.mem_filter.1 mem).1, at_i, line⟩
    · exact nomatch e.symm.trans hs
  · exact fun i r hi hr begun w hw ne q hq kq =>
      h.began i r (receiving i r hi hr) hr begun w (sub.subset hw) ne q (receiving _ q hq kq) kq

/-! #### One slot takes another record -/

theorem getElem?_set_some {i j : Nat} {r r' x : Slot} (hi : m[i]? = some r) :
    (m.set i r')[j]? = some x ↔ (j = i ∧ x = r') ∨ (j ≠ i ∧ m[j]? = some x) := by
  have inside : i < m.length := (List.getElem?_eq_some_iff.1 hi).1
  by_cases h : j = i
  · subst h
    simp [inside, eq_comm]
  · simp [h, Ne.symm h]

theorem modify_eq_set {i : Nat} {r : Slot} (f : Slot → Slot) (hi : m[i]? = some r) : m.modify i f = m.set i (f r) := by
  rw [List.modify_eq_set_getElem?, hi]
  rfl

/-- One slot loses its frame. -/
theorem SlotFacts.dropAt {i : Nat} {r r' : Slot} (h : SlotFacts m complete shown slot accounted queue transfer)
    (hi : m[i]? = some r) (dropped : Dropped r') (fewer : complete'.Sublist complete)
    (listed : ∀ f, f ∈ complete' ↔ f ∈ complete ∧ ¬ (r.state = .complete ∧ r.frame = some f))
    (current : (slot' = slot ∧ accounted' = accounted ∧ r.state ≠ .filling) ∨ (slot' = none ∧ r.state = .filling))
    (sub : (Transfer.held transfer' ++ queue').Sublist (Transfer.held transfer ++ queue))
    (same : ∀ j, j ≠ i → (Transfer.held transfer' ++ queue').filter (fun w => w.slot == j) =
      (Transfer.held transfer ++ queue).filter (fun w => w.slot == j))
    (queued : ∀ w ∈ queue', w ∈ queue ∧ w.slot ≠ i)
    (writing : ∀ w, transfer' = some (.write w) →
      transfer = some (.write w) ∧ (w.slot = i → r'.state = .draining)) :
    SlotFacts (m.set i r') complete' shown slot' accounted' queue' transfer' := by
  have at_i (x : Slot) (hr : holdsFrame x) : x ≠ r' := fun e => not_holdsFrame_of_dropped dropped (e ▸ hr)
  have inside : (m.set i r')[i]? = some r' := (getElem?_set_some hi).2 (.inl ⟨rfl, rfl⟩)
  have stays (j : Nat) (ne : j ≠ i) (x : Slot) (hj : m[j]? = some x) : (m.set i r')[j]? = some x :=
    (getElem?_set_some hi).2 (.inr ⟨ne, hj⟩)
  refine h.drop ?_ (by simp) fewer ?_ (current.imp (fun k => ⟨k.1, k.2.1⟩) And.left) ?_ sub ?_ ?_ ?_
  · intro j x hj
    rcases (getElem?_set_some hi).1 hj with ⟨-, rfl⟩ | ⟨-, old⟩
    · exact .inr dropped
    · exact .inl old
  · intro f
    rw [listed f, h.listed f]
    constructor
    · rintro ⟨⟨j, x, hj, state, frame⟩, other⟩
      refine ⟨j, x, stays j (fun e => ?_) x hj, state, frame⟩
      rw [e, hi] at hj
      cases hj
      exact other ⟨state, frame⟩
    · rintro ⟨j, x, hj, state, frame⟩
      rcases (getElem?_set_some hi).1 hj with ⟨-, e⟩ | ⟨ne, old⟩
      · exact (at_i x (.inr (.inr (.inl state))) e).elim
      · refine ⟨⟨j, x, old, state, frame⟩, fun k => ?_⟩
        exact h.apart j i x r ne old hi (.inr (.inr (.inl state))) (.inr (.inr (.inl k.1))) (frame.trans k.2.symm)
  · intro j x hj
    rcases (getElem?_set_some hi).1 hj with ⟨rfl, rfl⟩ | ⟨ne, old⟩
    · have not_filling : x.state ≠ .filling := fun k => at_i x (.inl k) rfl
      refine ⟨fun k => (not_filling k).elim, fun k => ?_⟩
      rcases current with ⟨rfl, -, other⟩ | ⟨none, -⟩
      · exact (other ((h.filling_iff j r hi).2 k)).elim
      · exact nomatch none.symm.trans k
    · rw [h.filling_iff j x old]
      rcases current with ⟨rfl, -⟩ | ⟨rfl, fills⟩
      · exact Iff.rfl
      · refine ⟨fun k => ?_, nofun⟩
        rw [(h.filling_iff i r hi).1 fills] at k
        exact (ne (Option.some.inj k).symm).elim
  · intro j x hj hr
    refine same j fun e => ?_
    subst e
    rw [inside] at hj
    exact at_i x (holdsFrame_of_receivesFrame hr) (Option.some.inj hj).symm
  · intro w hw
    obtain ⟨old, ne⟩ := queued w hw
    obtain ⟨x, hx, hr⟩ := h.queued w old
    exact ⟨x, stays _ ne x hx, hr⟩
  · intro w hw
    obtain ⟨old, drains⟩ := writing w hw
    by_cases e : w.slot = i
    · exact ⟨r', e ▸ inside, .inr (drains e)⟩
    · obtain ⟨x, hx, hr⟩ := h.writing w old
      exact ⟨x, stays _ e x hx, hr⟩

theorem laterFrame_congr {r r' q q' : Slot} (first : r'.frame = r.frame) (second : q'.frame = q.frame) :
    laterFrame q' r' ↔ laterFrame q r := by
  unfold laterFrame
  rw [first, second]

/-- A slot that still receives its frame takes another record for it, FILLING or CLOSING, with its line writes. -/
theorem SlotFacts.receive {i : Nat} {r r' : Slot} (h : SlotFacts m complete shown slot accounted queue transfer)
    (hi : m[i]? = some r) (receives : receivesFrame r) (frame : r'.frame = r.frame)
    (state : (r'.state = r.state ∧ slot' = slot) ∨ (r.state = .filling ∧ r'.state = .closing ∧ slot' = none))
    (pending : r'.pending = (Transfer.held transfer' ++ queue').countP (fun w => w.slot == i))
    (others : ∀ j, j ≠ i → (Transfer.held transfer' ++ queue').filter (fun w => w.slot == j) =
      (Transfer.held transfer ++ queue).filter (fun w => w.slot == j))
    (waits : r'.state = .closing → 0 < r'.pending) (queued : ∀ w ∈ queue', w ∈ queue ∨ w.slot = i)
    (writing : ∀ w, transfer' = some (.write w) → transfer = some (.write w) ∨ w ∈ queue ∨ w.slot = i)
    (in_order : (Transfer.held transfer' ++ queue').Pairwise (InOrder m))
    (written : slot' = some i → ∀ l ∈ accounted',
      l ∈ r'.written ∨ ∃ w ∈ Transfer.held transfer' ++ queue', w.slot = i ∧ w.line = l)
    (account : ∀ j, slot' = some j → j ≠ i → accounted' = accounted)
    (began : r'.written ≠ [] → ∀ w ∈ Transfer.held transfer' ++ queue', w.slot ≠ i → ∀ q, m[w.slot]? = some q →
      receivesFrame q → laterFrame q r)
    (joined : ∀ w ∈ Transfer.held transfer' ++ queue', w ∈ Transfer.held transfer ++ queue ∨
      (w.slot = i ∧ r.state = .filling)) :
    SlotFacts (m.set i r') complete shown slot' accounted' queue' transfer' := by
  have receives' : receivesFrame r' := by
    rcases state with ⟨k, -⟩ | ⟨-, k, -⟩
    · unfold receivesFrame at *
      rwa [k]
    · exact .inr k
  have split {j : Nat} {x : Slot} (hj : (m.set i r')[j]? = some x) : (j = i ∧ x = r') ∨ (j ≠ i ∧ m[j]? = some x) :=
    (getElem?_set_some hi).1 hj
  have inside : (m.set i r')[i]? = some r' := (getElem?_set_some hi).2 (.inl ⟨rfl, rfl⟩)
  have stays (j : Nat) (ne : j ≠ i) (x : Slot) (hj : m[j]? = some x) : (m.set i r')[j]? = some x :=
    (getElem?_set_some hi).2 (.inr ⟨ne, hj⟩)
  have slot_of {j : Nat} (k : slot' = some j) : slot = some j := by
    rcases state with ⟨-, rfl⟩ | ⟨-, -, e⟩
    · exact k
    · exact nomatch e.symm.trans k
  have filling (j : Nat) (x : Slot) (hj : (m.set i r')[j]? = some x) : x.state = .filling ↔ slot' = some j := by
    rcases split hj, state with ⟨⟨rfl, rfl⟩ | ⟨ne, hj⟩, ⟨same, rfl⟩ | ⟨fills, closes, rfl⟩⟩
    · rw [same, h.filling_iff j r hi]
    · simp [closes]
    · exact h.filling_iff j x hj
    · have elsewhere := (h.filling_iff i r hi).1 fills
      rw [h.filling_iff j x hj, elsewhere]
      simp [Ne.symm ne]
  -- Every record of the new table stands for an old one of the same frame, which receives if it does.
  have old {j : Nat} {x : Slot} (hj : (m.set i r')[j]? = some x) :
      ∃ y, m[j]? = some y ∧ x.frame = y.frame ∧ (receivesFrame x ↔ receivesFrame y) ∧
        (¬ receivesFrame x → x.state = y.state) := by
    rcases split hj with ⟨rfl, rfl⟩ | ⟨-, hj⟩
    · exact ⟨r, hi, frame, iff_of_true receives' receives, fun k => (k receives').elim⟩
    · exact ⟨x, hj, rfl, Iff.rfl, fun _ => rfl⟩
  have kept {j : Nat} {x : Slot} (hj : (m.set i r')[j]? = some x) (still : ¬ receivesFrame x) : m[j]? = some x := by
    rcases split hj with ⟨-, rfl⟩ | ⟨-, hj⟩
    · exact (still receives').elim
    · exact hj
  have holds {x y : Slot} (rec : receivesFrame x ↔ receivesFrame y) (same : ¬ receivesFrame x → x.state = y.state)
      (k : holdsFrame x) : holdsFrame y := by
    by_cases l : receivesFrame x
    · exact holdsFrame_of_receivesFrame (rec.1 l)
    · unfold holdsFrame at *
      rwa [same l] at k
  have complete_still {x : Slot} (k : x.state = .complete) : ¬ receivesFrame x := by simp [receivesFrame, k]
  refine ⟨?_, ?_, h.nodup, ?_, ?_, filling, ?_, h.ordered, ?_, ?_, ?_, ?_, ?_, ?_, ?_, ?_, ?_, ?_⟩
  · intro j x hj
    obtain ⟨y, hy, same, rec, state⟩ := old hj
    rw [same, ← h.free_iff j y hy]
    by_cases k : receivesFrame x
    · have l := rec.1 k
      unfold receivesFrame at k l
      rcases k with k | k <;> rcases l with l | l <;> simp [k, l]
    · rw [state k]
  · intro j k x z ne hj hk hx hz
    obtain ⟨y, hy, same, rec, state⟩ := old hj
    obtain ⟨u, hu, same', rec', state'⟩ := old hk
    rw [same, same']
    exact h.apart j k y u ne hy hu (holds rec state hx) (holds rec' state' hz)
  · intro f
    rw [h.listed f]
    constructor
    · rintro ⟨j, x, hj, done, fr⟩
      refine ⟨j, x, stays j (fun e => ?_) x hj, done, fr⟩
      rw [e, hi] at hj
      cases hj
      exact complete_still done receives
    · rintro ⟨j, x, hj, done, fr⟩
      exact ⟨j, x, kept hj (complete_still done), done, fr⟩
  · exact fun j x hj k => h.of_shown j x (kept hj (by simp [receivesFrame, k])) k
  · intro j k
    rw [List.length_set]
    exact h.inside j (slot_of k)
  · intro f hf j x hj hx
    obtain ⟨y, hy, same, rec, state⟩ := old hj
    rw [same]
    refine h.later_shown f hf j y hy (hx.imp rec.1 fun done => ?_)
    rwa [← state (complete_still done)]
  · intro j k x z hj hk done hz
    obtain ⟨u, hu, same, rec, -⟩ := old hk
    rw [laterFrame_congr rfl same]
    exact h.later_complete j k x u (kept hj (complete_still done)) hu done (rec.1 hz)
  · intro j k x z hj hk closes fills
    obtain ⟨y, hy, same, -⟩ := old hj
    have here := (filling k z hk).1 fills
    have ne : slot' ≠ none := by simp [here]
    obtain ⟨same_state, same_slot⟩ := state.resolve_right fun l => ne l.2.2
    obtain ⟨u, hu, same', -⟩ := old hk
    rw [laterFrame_congr same same']
    refine h.later_closing j k y u hy hu ?_ ((h.filling_iff k u hu).2 (same_slot ▸ here))
    rcases split hj with ⟨rfl, rfl⟩ | ⟨-, hj⟩
    · rw [hi] at hy
      cases hy
      rw [← same_state]
      exact closes
    · rw [hj] at hy
      cases hy
      exact closes
  · intro j x hj k
    rcases split hj with ⟨rfl, rfl⟩ | ⟨ne, hj⟩
    · exact pending
    · rw [List.countP_eq_length_filter, others j ne, ← List.countP_eq_length_filter]
      exact h.pending j x hj k
  · intro j x hj k
    rcases split hj with ⟨rfl, rfl⟩ | ⟨-, hj⟩
    · exact waits k
    · exact h.closing_waits j x hj k
  · intro w hw
    by_cases e : w.slot = i
    · exact ⟨r', e ▸ inside, receives'⟩
    · obtain ⟨x, hx, k⟩ := h.queued w ((queued w hw).resolve_right e)
      exact ⟨x, stays _ e x hx, k⟩
  · intro w hw
    by_cases e : w.slot = i
    · exact ⟨r', e ▸ inside, .inl receives'⟩
    · rcases writing w hw with l | l | l
      · obtain ⟨x, hx, k⟩ := h.writing w l
        exact ⟨x, stays _ e x hx, k⟩
      · obtain ⟨x, hx, k⟩ := h.queued w l
        exact ⟨x, stays _ e x hx, .inl k⟩
      · exact (e l).elim
  · refine in_order.imp fun {v w} order x z ne hx hz kx kz => ?_
    obtain ⟨y, hy, same, rec, -⟩ := old hx
    obtain ⟨u, hu, same', rec', -⟩ := old hz
    rw [laterFrame_congr same same']
    exact order y u ne hy hu (rec.1 kx) (rec'.1 kz)
  · intro j x k hj l hl
    rcases split hj with ⟨rfl, rfl⟩ | ⟨ne, hj⟩
    · exact written k l hl
    · rw [account j k ne] at hl
      refine (h.written j x (slot_of k) hj l hl).imp_right fun ⟨w, hw, there, line⟩ => ?_
      have mem : w ∈ (Transfer.held transfer ++ queue).filter (fun w => w.slot == j) := by simpa [there] using hw
      rw [← others j ne] at mem
      exact ⟨w, (List.mem_filter.1 mem).1, there, line⟩
  · intro j x hj k begun w hw ne z hz kz
    obtain ⟨u, hu, same, rec, -⟩ := old hz
    rcases split hj with ⟨rfl, rfl⟩ | ⟨ne_i, hj⟩
    · rw [laterFrame_congr frame same]
      exact began begun w hw ne u hu (rec.1 kz)
    · rw [laterFrame_congr rfl same]
      rcases joined w hw with l | ⟨there, fills⟩
      · exact h.began j x hj k begun w l ne u hu (rec.1 kz)
      · rw [there, hi] at hu
        cases hu
        have at_i := (h.filling_iff i r hi).1 fills
        have closes : x.state = .closing := k.resolve_left fun l =>
          ne_i (Option.some.inj (((h.filling_iff j x hj).1 l).symm.trans at_i))
        exact h.later_closing j i x r hj hi closes fills

end Sys2Proof

/-! ### Claims, completions and presentations at the slot table (R7, R10, R14) -/

namespace Sys2Proof

open Sys2Proof.Machine

variable {m : List Slot} {complete : List FrameNo} {shown : Option FrameNo} {slot slot' : Option Nat}
  {accounted accounted' : List Nat} {queue queue' : List LineWrite} {transfer transfer' : Option Transfer}

/-- A line write that holds a place is for a slot that receives or drains. -/
theorem SlotFacts.held_slot (h : SlotFacts m complete shown slot accounted queue transfer) {w : LineWrite}
    (hw : w ∈ Transfer.held transfer ++ queue) :
    ∃ r, m[w.slot]? = some r ∧ (receivesFrame r ∨ r.state = .draining) := by
  rcases List.mem_append.1 hw with k | k
  · refine h.writing w ?_
    rcases transfer with _ | v | _
    · exact nomatch k
    · rw [List.mem_singleton.1 k]
    · exact nomatch k
  · obtain ⟨r, hr, receives⟩ := h.queued w k
    exact ⟨r, hr, .inl receives⟩

/-- Where no frame is in progress the accounted set says nothing. -/
theorem SlotFacts.account (h : SlotFacts m complete shown none accounted queue transfer) (accounted' : List Nat) :
    SlotFacts m complete shown none accounted' queue transfer :=
  { h with written := nofun }

/-- A transfer begins, or one that is not a write ends: the line writes hold their places as before. -/
theorem SlotFacts.regrant (h : SlotFacts m complete shown slot accounted queue transfer)
    (held : Transfer.held transfer' ++ queue' = Transfer.held transfer ++ queue) (queued : ∀ w ∈ queue', w ∈ queue)
    (writing : ∀ w, transfer' = some (.write w) → transfer = some (.write w) ∨ w ∈ queue) :
    SlotFacts m complete shown slot accounted queue' transfer' where
  free_iff := h.free_iff
  apart := h.apart
  nodup := h.nodup
  listed := h.listed
  of_shown := h.of_shown
  filling_iff := h.filling_iff
  inside := h.inside
  ordered := h.ordered
  later_shown := h.later_shown
  later_complete := h.later_complete
  later_closing := h.later_closing
  pending := by rw [held]; exact h.pending
  closing_waits := h.closing_waits
  queued w hw := h.queued w (queued w hw)
  writing w hw := (writing w hw).elim (h.writing w) fun k => (h.queued w k).imp fun _ l => ⟨l.1, .inl l.2⟩
  in_order := by rw [held]; exact h.in_order
  written := by rw [held]; exact h.written
  began := by rw [held]; exact h.began

/-! #### Claims -/

/-- The oldest unpinned frame is evicted (R7, R13). -/
theorem SlotFacts.evict {i : Nat} {r : Slot} {f : FrameNo}
    (h : SlotFacts m complete shown slot accounted queue transfer) (hi : m[i]? = some r) (done : r.state = .complete)
    (frame : r.frame = some f) :
    SlotFacts (m.set i .freed) (complete.erase f) shown slot accounted queue transfer := by
  have apart {w : LineWrite} (hw : w ∈ Transfer.held transfer ++ queue) : w.slot ≠ i := by
    obtain ⟨x, hx, k⟩ := h.held_slot hw
    rintro e
    rw [e, hi] at hx
    cases hx
    simp [receivesFrame, done] at k
  refine h.dropAt hi dropped_freed List.erase_sublist (fun g => ?_) (.inl ⟨rfl, rfl, by simp [done]⟩) (.refl _)
    (fun _ _ => rfl) (fun w hw => ⟨hw, apart (List.mem_append_right _ hw)⟩) ?_
  · rw [h.nodup.mem_erase_iff, frame]
    simp [done, eq_comm, and_comm]
  · rintro w rfl
    exact ⟨rfl, fun e => (apart List.mem_cons_self e).elim⟩

/-- A FREE slot is claimed for a frame later than every one that is held (R7, R147). -/
theorem SlotFacts.claim {i : Nat} {r : Slot} {n : FrameNo}
    (h : SlotFacts m complete shown none accounted queue transfer) (hi : m[i]? = some r) (free : r.state = .free)
    (past_shown : ∀ f, shown = some f → laterThan n f = true)
    (past_held : ∀ (j : Nat) (x : Slot), m[j]? = some x → receivesFrame x ∨ x.state = .complete →
      ∃ f, x.frame = some f ∧ laterThan n f = true) :
    SlotFacts (m.set i (.claimed n)) complete shown (some i) [] queue transfer := by
  have split {j : Nat} {x : Slot} (hj : (m.set i (.claimed n))[j]? = some x) :
      (j = i ∧ x = .claimed n) ∨ (j ≠ i ∧ m[j]? = some x) := (getElem?_set_some hi).1 hj
  have stays {j : Nat} {x : Slot} (hj : m[j]? = some x) (ne : x.state ≠ .free) :
      (m.set i (.claimed n))[j]? = some x := by
    refine (getElem?_set_some hi).2 (.inr ⟨fun e => ?_, hj⟩)
    rw [e, hi] at hj
    cases hj
    exact ne free
  have kept {j : Nat} {x : Slot} (hj : (m.set i (.claimed n))[j]? = some x) (ne : x.state ≠ .filling) :
      m[j]? = some x := by
    rcases split hj with ⟨-, rfl⟩ | ⟨-, hj⟩
    · exact (ne rfl).elim
    · exact hj
  have unfilled {j : Nat} {x : Slot} (hj : m[j]? = some x) : x.state ≠ .filling :=
    fun k => nomatch (h.filling_iff j x hj).1 k
  have apart {w : LineWrite} (hw : w ∈ Transfer.held transfer ++ queue) : w.slot ≠ i := by
    obtain ⟨x, hx, k⟩ := h.held_slot hw
    rintro e
    rw [e, hi] at hx
    cases hx
    simp [receivesFrame, free] at k
  -- No other slot holds frame `n`.
  have fresh {j : Nat} {x : Slot} (hj : m[j]? = some x) (holds : holdsFrame x) : x.frame ≠ some n := by
    intro e
    have past {f : FrameNo} (hf : x.frame = some f) (later : laterThan n f = true) : False := by
      rw [hf] at e
      cases e
      simp [laterThan_irrefl] at later
    rcases holds with k | k | k | k
    · exact unfilled hj k
    · obtain ⟨f, hf, later⟩ := past_held j x hj (.inl (.inr k))
      exact past hf later
    · obtain ⟨f, hf, later⟩ := past_held j x hj (.inr k)
      exact past hf later
    · exact past e (past_shown n ((h.of_shown j x hj k).symm.trans e))
  refine ⟨?_, ?_, h.nodup, ?_, ?_, ?_, ?_, h.ordered, ?_, ?_, ?_, ?_, ?_, ?_, ?_, ?_, nofun, ?_⟩
  · intro j x hj
    rcases split hj with ⟨-, rfl⟩ | ⟨-, hj⟩
    · simp [Slot.claimed]
    · exact h.free_iff j x hj
  · intro j k x z ne hj hk hx hz
    rcases split hj with ⟨rfl, rfl⟩ | ⟨-, hj'⟩ <;> rcases split hk with ⟨rfl, rfl⟩ | ⟨-, hk'⟩
    · exact (ne rfl).elim
    · exact (fresh hk' hz).symm
    · exact fresh hj' hx
    · exact h.apart j k x z ne hj' hk' hx hz
  · intro f
    rw [h.listed f]
    constructor
    · exact fun ⟨j, x, hj, done, fr⟩ => ⟨j, x, stays hj (by simp [done]), done, fr⟩
    · exact fun ⟨j, x, hj, done, fr⟩ => ⟨j, x, kept hj (by simp [done]), done, fr⟩
  · exact fun j x hj k => h.of_shown j x (kept hj (by simp [k])) k
  · intro j x hj
    rcases split hj with ⟨rfl, rfl⟩ | ⟨ne, hj⟩
    · simp [Slot.claimed]
    · simp [unfilled hj, Ne.symm ne]
  · rintro j e
    cases e
    rw [List.length_set]
    exact (List.getElem?_eq_some_iff.1 hi).1
  · intro f hf j x hj k
    rcases split hj with ⟨-, rfl⟩ | ⟨-, hj⟩
    · exact ⟨n, rfl, past_shown f hf⟩
    · exact h.later_shown f hf j x hj k
  · intro j k x z hj hk done rec
    have hj := kept hj (by simp [done])
    rcases split hk with ⟨-, rfl⟩ | ⟨-, hk⟩
    · obtain ⟨f, hf, later⟩ := past_held j x hj (.inr done)
      exact ⟨f, n, hf, rfl, later⟩
    · exact h.later_complete j k x z hj hk done rec
  · intro j k x z hj hk closes fills
    have hj := kept hj (by simp [closes])
    rcases split hk with ⟨-, rfl⟩ | ⟨-, hk⟩
    · obtain ⟨f, hf, later⟩ := past_held j x hj (.inl (.inr closes))
      exact ⟨f, n, hf, rfl, later⟩
    · exact (unfilled hk fills).elim
  · intro j x hj rec
    rcases split hj with ⟨rfl, rfl⟩ | ⟨-, hj⟩
    · refine (List.countP_eq_zero.2 fun w hw => ?_).symm
      simpa using apart hw
    · exact h.pending j x hj rec
  · exact fun j x hj k => h.closing_waits j x (kept hj (by simp [k])) k
  · intro w hw
    obtain ⟨x, hx, rec⟩ := h.queued w hw
    exact ⟨x, stays hx (by rcases rec with k | k <;> simp [k]), rec⟩
  · intro w hw
    obtain ⟨x, hx, rec⟩ := h.writing w hw
    exact ⟨x, stays hx (by rcases rec with (k | k) | k <;> simp [k]), rec⟩
  · refine List.Pairwise.imp_of_mem ?_ h.in_order
    intro v w hv hw order x z ne hx hz kx kz
    have old {j : Nat} {y : Slot} (other : j ≠ i) (hj : (m.set i (.claimed n))[j]? = some y) : m[j]? = some y :=
      ((split hj).resolve_left fun k => other k.1).2
    exact order x z ne (old (apart hv) hx) (old (apart hw) hz) kx kz
  · intro j x hj rec begun w hw ne z hz kz
    have hz : m[w.slot]? = some z := ((split hz).resolve_left fun k => apart hw k.1).2
    rcases split hj with ⟨-, rfl⟩ | ⟨-, hj⟩
    · exact (begun rfl).elim
    · exact h.began j x hj rec begun w hw ne z hz kz

/-! #### Completions -/

/-- A slot that receives its frame becomes COMPLETE, its last line write being done, before every other slot that still
receives one (R10, R12). -/
theorem SlotFacts.completes {i : Nat} {r r' : Slot} {f : FrameNo}
    (h : SlotFacts m complete shown slot accounted queue transfer) (hi : m[i]? = some r) (receives : receivesFrame r)
    (frame : r.frame = some f) (done : r'.state = .complete) (frame' : r'.frame = some f)
    (current : (r.state = .filling ∧ slot' = none) ∨ (r.state = .closing ∧ slot' = slot ∧ accounted' = accounted))
    (before : ∀ (j : Nat) (x : Slot), j ≠ i → m[j]? = some x → receivesFrame x → laterFrame x r)
    (sub : (Transfer.held transfer' ++ queue').Sublist (Transfer.held transfer ++ queue))
    (others : ∀ j, j ≠ i → (Transfer.held transfer' ++ queue').filter (fun w => w.slot == j) =
      (Transfer.held transfer ++ queue).filter (fun w => w.slot == j))
    (queued : ∀ w ∈ queue', w ∈ queue ∧ w.slot ≠ i)
    (writing : ∀ w, transfer' = some (.write w) → transfer = some (.write w) ∧ w.slot ≠ i) :
    SlotFacts (m.set i r') (complete ++ [f]) shown slot' accounted' queue' transfer' := by
  have split {j : Nat} {x : Slot} (hj : (m.set i r')[j]? = some x) : (j = i ∧ x = r') ∨ (j ≠ i ∧ m[j]? = some x) :=
    (getElem?_set_some hi).1 hj
  have inside : (m.set i r')[i]? = some r' := (getElem?_set_some hi).2 (.inl ⟨rfl, rfl⟩)
  have stays {j : Nat} {x : Slot} (ne : j ≠ i) (hj : m[j]? = some x) : (m.set i r')[j]? = some x :=
    (getElem?_set_some hi).2 (.inr ⟨ne, hj⟩)
  have slot_of {j : Nat} (k : slot' = some j) : slot = some j ∧ accounted' = accounted := by
    rcases current with ⟨-, e⟩ | ⟨-, rfl, a⟩
    · exact nomatch e.symm.trans k
    · exact ⟨k, a⟩
  have still {j : Nat} {x : Slot} (hj : (m.set i r')[j]? = some x) (ne : x.state ≠ .complete) :
      j ≠ i ∧ m[j]? = some x := by
    rcases split hj with ⟨-, rfl⟩ | k
    · exact (ne done).elim
    · exact k
  have receiving {j : Nat} {x : Slot} (hj : (m.set i r')[j]? = some x) (rec : receivesFrame x) :
      j ≠ i ∧ m[j]? = some x := still hj (by rcases rec with k | k <;> simp [k])
  have was : r.state ≠ .complete := by rcases receives with k | k <;> simp [k]
  refine ⟨?_, ?_, ?_, ?_, ?_, ?_, ?_, ?_, ?_, ?_, ?_, ?_, ?_, ?_, ?_, ?_, ?_, ?_⟩
  · intro j x hj
    rcases split hj with ⟨-, rfl⟩ | ⟨-, hj⟩
    · simp [done, frame']
    · exact h.free_iff j x hj
  · intro j k x z ne hj hk hx hz
    rcases split hj with ⟨rfl, rfl⟩ | ⟨-, hj'⟩ <;> rcases split hk with ⟨rfl, rfl⟩ | ⟨-, hk'⟩
    · exact (ne rfl).elim
    · rw [frame', ← frame]
      exact h.apart j k r z ne hi hk' (holdsFrame_of_receivesFrame receives) hz
    · rw [frame', ← frame]
      exact h.apart j k x r ne hj' hi hx (holdsFrame_of_receivesFrame receives)
    · exact h.apart j k x z ne hj' hk' hx hz
  · refine List.nodup_append.2 ⟨h.nodup, List.nodup_singleton f, ?_⟩
    rintro g hg _ hf rfl
    rw [List.mem_singleton.1 hf] at hg
    obtain ⟨j, x, hj, k, fr⟩ := (h.listed f).1 hg
    refine h.apart j i x r (fun e => ?_) hj hi (.inr (.inr (.inl k))) (holdsFrame_of_receivesFrame receives)
      (fr.trans frame.symm)
    rw [e, hi] at hj
    cases hj
    exact was k
  · intro g
    rw [List.mem_append, List.mem_singleton, h.listed g]
    constructor
    · rintro (⟨j, x, hj, k, fr⟩ | rfl)
      · refine ⟨j, x, stays (fun e => ?_) hj, k, fr⟩
        rw [e, hi] at hj
        cases hj
        exact was k
      · exact ⟨i, r', inside, done, frame'⟩
    · rintro ⟨j, x, hj, k, fr⟩
      rcases split hj with ⟨-, rfl⟩ | ⟨-, hj⟩
      · exact .inr (Option.some.inj (fr.symm.trans frame'))
      · exact .inl ⟨j, x, hj, k, fr⟩
  · exact fun j x hj k => h.of_shown j x (still hj (by simp [k])).2 k
  · intro j x hj
    rcases split hj with ⟨rfl, rfl⟩ | ⟨ne, hj⟩
    · refine ⟨fun k => (nomatch done.symm.trans k), fun k => ?_⟩
      rcases current with ⟨-, e⟩ | ⟨closes, rfl, -⟩
      · exact nomatch e.symm.trans k
      · exact nomatch closes.symm.trans ((h.filling_iff j r hi).2 k)
    · rw [h.filling_iff j x hj]
      rcases current with ⟨fills, rfl⟩ | ⟨-, rfl, -⟩
      · rw [(h.filling_iff i r hi).1 fills]
        simp [Ne.symm ne]
      · exact Iff.rfl
  · intro j k
    rw [List.length_set]
    exact h.inside j (slot_of k).1
  · refine List.pairwise_append.2 ⟨h.ordered, List.pairwise_singleton _ f, ?_⟩
    intro g hg f' hf
    rw [List.mem_singleton.1 hf]
    obtain ⟨j, x, hj, k, fr⟩ := (h.listed g).1 hg
    obtain ⟨g', f', hg', hf', later⟩ := h.later_complete j i x r hj hi k receives
    rw [fr] at hg'
    rw [frame] at hf'
    cases hg'
    cases hf'
    exact later
  · intro g hg j x hj k
    rcases split hj with ⟨-, rfl⟩ | ⟨-, hj⟩
    · rw [frame', ← frame]
      exact h.later_shown g hg i r hi (.inl receives)
    · exact h.later_shown g hg j x hj k
  · intro j k x z hj hk l rec
    obtain ⟨ne, hk'⟩ := receiving hk rec
    rcases split hj with ⟨-, rfl⟩ | ⟨-, hj'⟩
    · rw [laterFrame_congr (frame'.trans frame.symm) rfl]
      exact before k z ne hk' rec
    · exact h.later_complete j k x z hj' hk' l rec
  · exact fun j k x z hj hk closes fills =>
      h.later_closing j k x z (receiving hj (.inr closes)).2 (receiving hk (.inl fills)).2 closes fills
  · intro j x hj rec
    obtain ⟨ne, hj⟩ := receiving hj rec
    rw [List.countP_eq_length_filter, others j ne, ← List.countP_eq_length_filter]
    exact h.pending j x hj rec
  · exact fun j x hj k => h.closing_waits j x (receiving hj (.inr k)).2 k
  · intro w hw
    obtain ⟨old, ne⟩ := queued w hw
    obtain ⟨x, hx, rec⟩ := h.queued w old
    exact ⟨x, stays ne hx, rec⟩
  · intro w hw
    obtain ⟨old, ne⟩ := writing w hw
    obtain ⟨x, hx, rec⟩ := h.writing w old
    exact ⟨x, stays ne hx, rec⟩
  · refine (h.in_order.sublist sub).imp fun {v w} order x z ne hx hz kx kz => ?_
    exact order x z ne (receiving hx kx).2 (receiving hz kz).2 kx kz
  · intro j x k hj l hl
    obtain ⟨k', e⟩ := slot_of k
    rw [e] at hl
    have ne : j ≠ i := by
      rintro rfl
      rcases current with ⟨-, e⟩ | ⟨closes, -, -⟩
      · exact nomatch e.symm.trans k
      · exact nomatch closes.symm.trans ((h.filling_iff j r hi).2 k')
    have hj := ((split hj).resolve_left fun k => ne k.1).2
    refine (h.written j x k' hj l hl).imp_right fun ⟨w, hw, there, line⟩ => ?_
    have mem : w ∈ (Transfer.held transfer ++ queue).filter (fun w => w.slot == j) := by simpa [there] using hw
    rw [← others j ne] at mem
    exact ⟨w, (List.mem_filter.1 mem).1, there, line⟩
  · exact fun j x hj rec begun w hw ne z hz kz =>
      h.began j x (receiving hj rec).2 rec begun w (sub.subset hw) ne z (receiving hz kz).2 kz

end Sys2Proof

/-! ### Presentations, abandonments and evictions at the slot table (R6, R11, R13, R14) -/

namespace Sys2Proof

open Sys2Proof.Machine

variable {m : List Slot} {complete : List FrameNo} {shown : Option FrameNo} {slot : Option Nat}
  {accounted accounted' : List Nat} {queue : List LineWrite} {transfer : Option Transfer}

/-! #### What a presentation makes of a record -/

theorem presented_of_receives {r : Slot} (f : FrameNo) (h : receivesFrame r) : r.presented f = r := by
  rcases h with k | k <;> simp [Slot.presented, k]

/-- A record that receives, drains or is COMPLETE after a presentation is as it was; one that is SHOWN was COMPLETE with
the frame presented. -/
inductive Presented (f : FrameNo) (r : Slot) : Slot → Prop
  | same (not_shown : r.state ≠ .shown)
      (later : r.state = .complete → ∀ g, r.frame = some g → g ≠ f ∧ laterThan f g = false) : Presented f r r
  | freed : Presented f r .freed
  | shows (done : r.state = .complete) (frame : r.frame = some f) : Presented f r { r with state := .shown }

theorem presented_presented (f : FrameNo) (r : Slot) : Presented f r (r.presented f) := by
  unfold Slot.presented
  cases state : r.state
  case complete =>
    cases frame : r.frame with
    | none => exact .same (by simp [state]) (by simp [frame])
    | some g =>
      dsimp only
      split
      · next e =>
        subst e
        rw [← frame]
        exact .shows state frame
      · next ne =>
        split
        · exact .freed
        · next early =>
          refine .same (by simp [state]) fun _ g' hg => ?_
          rw [frame] at hg
          cases hg
          exact ⟨ne, by simpa using early⟩
  case shown => exact .freed
  all_goals exact .same (by simp [state]) (by simp [state])

theorem Presented.of_holds {f : FrameNo} {r x : Slot} (h : Presented f r x) (k : holdsFrame x) :
    holdsFrame r ∧ x.frame = r.frame := by
  cases h with
  | same => exact ⟨k, rfl⟩
  | freed => simp [holdsFrame, Slot.freed] at k
  | shows done => exact ⟨.inr (.inr (.inl done)), rfl⟩

theorem Presented.of_receives {f : FrameNo} {r x : Slot} (h : Presented f r x) (k : receivesFrame x) : x = r := by
  cases h with
  | same => rfl
  | freed => simp [receivesFrame, Slot.freed] at k
  | shows => simp [receivesFrame] at k

theorem Presented.of_complete {f : FrameNo} {r x : Slot} (h : Presented f r x) (k : x.state = .complete) :
    x = r ∧ ∀ g, r.frame = some g → g ≠ f ∧ laterThan f g = false := by
  cases h with
  | same _ later => exact ⟨rfl, later k⟩
  | freed => exact nomatch k
  | shows => exact nomatch k

/-- Of two frames of a list in ascending serial order one is later. -/
theorem later_or_later {l : List FrameNo} {f g : FrameNo} (h : l.Pairwise (fun f g => laterThan g f = true))
    (hf : f ∈ l) (hg : g ∈ l) (ne : f ≠ g) : laterThan g f = true ∨ laterThan f g = true := by
  have : Std.Symm fun a b : FrameNo => laterThan b a = true ∨ laterThan a b = true := ⟨fun _ _ k => k.symm⟩
  have either : l.Pairwise fun a b => laterThan b a = true ∨ laterThan a b = true := h.imp Or.inl
  exact either.forall hf hg ne

/-- A COMPLETE frame is presented: the frames before it are skipped, and the frame shown before leaves its slot (R14). -/
theorem SlotFacts.present {i : Nat} {r : Slot} {f : FrameNo}
    (h : SlotFacts m complete shown slot accounted queue transfer) (hi : m[i]? = some r) (done : r.state = .complete)
    (frame : r.frame = some f) :
    SlotFacts (m.map (Slot.presented f)) (complete.filter fun g => decide (g ≠ f) && !laterThan f g) (some f) slot
      accounted queue transfer := by
  have split {j : Nat} {x : Slot} (hj : (m.map (Slot.presented f))[j]? = some x) :
      ∃ y, m[j]? = some y ∧ Presented f y x := by
    rw [List.getElem?_map, Option.map_eq_some_iff] at hj
    obtain ⟨y, hy, rfl⟩ := hj
    exact ⟨y, hy, presented_presented f y⟩
  have receiving {j : Nat} {x : Slot} (hj : (m.map (Slot.presented f))[j]? = some x) (rec : receivesFrame x) :
      m[j]? = some x := by
    obtain ⟨y, hy, k⟩ := split hj
    rwa [k.of_receives rec]
  have completed {j : Nat} {x : Slot} (hj : (m.map (Slot.presented f))[j]? = some x) (k : x.state = .complete) :
      m[j]? = some x := by
    obtain ⟨y, hy, l⟩ := split hj
    rwa [(l.of_complete k).1]
  have stays {j : Nat} {x : Slot} (hj : m[j]? = some x) (same : x.presented f = x) :
      (m.map (Slot.presented f))[j]? = some x := by
    rw [List.getElem?_map, hj, Option.map_some, same]
  have in_list : f ∈ complete := (h.listed f).2 ⟨i, r, hi, done, frame⟩
  refine ⟨?_, ?_, h.nodup.filter _, ?_, ?_, ?_, ?_, h.ordered.filter _, ?_, ?_, ?_, ?_, ?_, ?_, ?_, ?_, ?_, ?_⟩
  · intro j x hj
    obtain ⟨y, hy, k⟩ := split hj
    cases k with
    | same => exact h.free_iff j _ hy
    | freed => simp [Slot.freed]
    | shows done frame => simp [frame]
  · intro j k x z ne hj hk hx hz
    obtain ⟨y, hy, l⟩ := split hj
    obtain ⟨u, hu, l'⟩ := split hk
    obtain ⟨hy', same⟩ := l.of_holds hx
    obtain ⟨hu', same'⟩ := l'.of_holds hz
    rw [same, same']
    exact h.apart j k y u ne hy hu hy' hu'
  · intro g
    rw [List.mem_filter, h.listed g]
    constructor
    · rintro ⟨⟨j, x, hj, k, fr⟩, other⟩
      simp only [ne_eq, Bool.and_eq_true, decide_eq_true_eq, Bool.not_eq_true'] at other
      exact ⟨j, x, stays hj (by simp [Slot.presented, k, fr, other]), k, fr⟩
    · rintro ⟨j, x, hj, k, fr⟩
      obtain ⟨y, hy, l⟩ := split hj
      obtain ⟨rfl, later⟩ := l.of_complete k
      obtain ⟨ne, early⟩ := later g fr
      exact ⟨⟨j, x, hy, k, fr⟩, by simp [ne, early]⟩
  · intro j x hj k
    obtain ⟨y, hy, l⟩ := split hj
    cases l with
    | same not_shown => exact (not_shown k).elim
    | freed => exact nomatch k
    | shows _ frame => exact frame
  · intro j x hj
    obtain ⟨y, hy, l⟩ := split hj
    rw [← h.filling_iff j y hy]
    refine ⟨fun k => ?_, fun k => ?_⟩
    · rwa [← l.of_receives (.inl k)]
    · rw [List.getElem?_map, hy, Option.map_some, presented_of_receives f (.inl k)] at hj
      cases hj
      exact k
  · intro j k
    rw [List.length_map]
    exact h.inside j k
  · intro _ e j x hj k
    cases e
    rcases k with k | k
    · obtain ⟨f', g, hf, hg, later⟩ := h.later_complete i j r x hi (receiving hj k) done k
      rw [frame] at hf
      cases hf
      exact ⟨g, hg, later⟩
    · obtain ⟨y, hy, l⟩ := split hj
      obtain ⟨rfl, early⟩ := l.of_complete k
      cases fr : x.frame with
      | none => exact nomatch k.symm.trans ((h.free_iff j x hy).2 fr)
      | some g =>
        obtain ⟨ne, before⟩ := early g fr
        have either := later_or_later h.ordered in_list ((h.listed g).2 ⟨j, x, hy, k, fr⟩) (Ne.symm ne)
        exact ⟨g, rfl, either.resolve_right (by simp [before])⟩
  · exact fun j k x z hj hk l rec => h.later_complete j k x z (completed hj l) (receiving hk rec) l rec
  · exact fun j k x z hj hk closes fills =>
      h.later_closing j k x z (receiving hj (.inr closes)) (receiving hk (.inl fills)) closes fills
  · exact fun j x hj rec => h.pending j x (receiving hj rec) rec
  · exact fun j x hj k => h.closing_waits j x (receiving hj (.inr k)) k
  · intro w hw
    obtain ⟨x, hx, rec⟩ := h.queued w hw
    exact ⟨x, stays hx (presented_of_receives f rec), rec⟩
  · intro w hw
    obtain ⟨x, hx, k⟩ := h.writing w hw
    refine ⟨x, stays hx ?_, k⟩
    rcases k with rec | drains
    · exact presented_of_receives f rec
    · simp [Slot.presented, drains]
  · exact h.in_order.imp fun order x z ne hx hz kx kz => order x z ne (receiving hx kx) (receiving hz kz) kx kz
  · exact fun j x k hj => h.written j x k (receiving hj (.inl (by
      obtain ⟨y, hy, l⟩ := split hj
      have fills := (h.filling_iff j y hy).2 k
      rw [List.getElem?_map, hy, Option.map_some, presented_of_receives f (.inl fills)] at hj
      cases hj
      exact fills)))
  · exact fun j x hj rec begun w hw ne z hz kz =>
      h.began j x (receiving hj rec) rec begun w hw ne z (receiving hz kz) kz

/-! #### Abandonments -/

/-- The line write in progress, if one is, is for slot `i`. -/
def Writing (transfer : Option Transfer) (i : Nat) (b : Bool) : Prop :=
  b = true ↔ ∃ w, transfer = some (.write w) ∧ w.slot = i

theorem dropped_abandoned {r : Slot} (b : Bool) (frame : r.frame ≠ none) : Dropped (r.abandoned b) := by
  cases b
  · exact dropped_freed
  · exact .inr ⟨rfl, frame⟩

/-- The slot being filled is abandoned (R11). -/
theorem SlotFacts.abandon {i : Nat} {b : Bool}
    (h : SlotFacts m complete shown (some i) accounted queue transfer) (writing : Writing transfer i b) :
    SlotFacts (m.modify i (Slot.abandoned b)) complete shown none accounted' (queue.filter fun w => w.slot != i)
      transfer := by
  obtain ⟨r, hi⟩ : ∃ r, m[i]? = some r := ⟨m[i]'(h.inside i rfl), List.getElem?_eq_getElem _⟩
  have fills : r.state = .filling := (h.filling_iff i r hi).2 rfl
  have frame : r.frame ≠ none := fun e => nomatch fills.symm.trans ((h.free_iff i r hi).2 e)
  rw [modify_eq_set _ hi]
  refine h.dropAt hi (dropped_abandoned b frame) (.refl _) (by simp [fills]) (.inr ⟨rfl, fills⟩)
    (List.filter_sublist.append_left _) ?_ ?_ ?_
  · intro j ne
    rw [List.filter_append, List.filter_append, List.filter_filter]
    congr 1
    refine List.filter_congr fun w _ => ?_
    by_cases e : w.slot = j
    · simp [e, ne]
    · simp [e]
  · intro w hw
    rw [List.mem_filter] at hw
    exact ⟨hw.1, by simpa using hw.2⟩
  · refine fun w hw => ⟨hw, fun e => ?_⟩
    have b_true : b = true := writing.2 ⟨w, hw, e⟩
    rw [b_true]
    rfl

/-- What a link reset makes of the record at INDEX `i`. -/
def resetSlot (b : Nat → Bool) (i : Nat) (r : Slot) : Slot :=
  if r.state == .filling || r.state == .closing then r.abandoned (b i) else r

theorem resetSlot_of_receives {r : Slot} (b : Nat → Bool) (i : Nat) (h : receivesFrame r) :
    resetSlot b i r = r.abandoned (b i) := by
  rcases h with k | k <;> simp [resetSlot, k]

theorem resetSlot_of_still {r : Slot} (b : Nat → Bool) (i : Nat) (h : ¬ receivesFrame r) : resetSlot b i r = r :=
  if_neg (by simpa [receivesFrame] using h)

/-- Every slot that receives its frame is abandoned, and the write queue emptied (R18). -/
theorem SlotFacts.reset {b : Nat → Bool} (h : SlotFacts m complete shown slot accounted queue transfer)
    (writing : ∀ i, Writing transfer i (b i)) :
    SlotFacts (m.mapIdx (resetSlot b)) complete shown none accounted' [] transfer := by
  have split {j : Nat} {x : Slot} (hj : (m.mapIdx (resetSlot b))[j]? = some x) :
      Dropped x ∨ (¬ receivesFrame x ∧ m[j]? = some x) := by
    rw [List.getElem?_mapIdx, Option.map_eq_some_iff] at hj
    obtain ⟨y, hy, rfl⟩ := hj
    by_cases k : receivesFrame y
    · rw [resetSlot_of_receives b j k]
      refine .inl (dropped_abandoned _ fun e => ?_)
      have free := (h.free_iff j y hy).2 e
      rcases k with k | k <;> exact nomatch k.symm.trans free
    · rw [resetSlot_of_still b j k]
      exact .inr ⟨k, hy⟩
  have still {j : Nat} {x : Slot} (hj : m[j]? = some x) (k : ¬ receivesFrame x) :
      (m.mapIdx (resetSlot b))[j]? = some x := by
    rw [List.getElem?_mapIdx, hj, Option.map_some, resetSlot_of_still b j k]
  have none_receives {j : Nat} {x : Slot} (hj : (m.mapIdx (resetSlot b))[j]? = some x) : ¬ receivesFrame x :=
    (split hj).elim (fun k l => not_holdsFrame_of_dropped k (holdsFrame_of_receivesFrame l)) And.left
  refine h.drop ?_ (by simp) (.refl _) ?_ (.inr rfl) ?_ (List.Sublist.append_left (List.nil_sublist _) _) ?_ nofun ?_
  · exact fun j x hj => (split hj).symm.imp_left And.right
  · intro f
    rw [h.listed f]
    constructor
    · exact fun ⟨j, x, hj, done, fr⟩ => ⟨j, x, still hj (by simp [receivesFrame, done]), done, fr⟩
    · rintro ⟨j, x, hj, done, fr⟩
      rcases split hj with dropped | ⟨-, old⟩
      · exact (not_holdsFrame_of_dropped dropped (.inr (.inr (.inl done)))).elim
      · exact ⟨j, x, old, done, fr⟩
  · exact fun j x hj => ⟨fun k => (none_receives hj (.inl k)).elim, nofun⟩
  · exact fun j x hj k => (none_receives hj k).elim
  · intro w hw
    obtain ⟨x, hx, k⟩ := h.writing w hw
    by_cases rec : receivesFrame x
    · have b_true : b w.slot = true := (writing w.slot).2 ⟨w, hw, rfl⟩
      refine ⟨x.abandoned true, ?_, .inr rfl⟩
      rw [List.getElem?_mapIdx, hx, Option.map_some, resetSlot_of_receives b _ rec, b_true]
    · exact ⟨x, still hx rec, .inr (k.resolve_left rec)⟩

end Sys2Proof

/-! ### The Slot Manager's operations (R7, R10, R12, R13) -/

namespace Sys2Proof

open Sys2Proof.Machine

variable {m m' : SlotManager} {pin : Option FrameNo} {shown : Option FrameNo} {slot : Option Nat}
  {accounted accounted' : List Nat} {queue : List LineWrite} {transfer : Option Transfer}

/-! #### Sets of line numbers -/

theorem mem_insertLine {n l : Nat} {lines : List Nat} : l ∈ insertLine n lines ↔ l = n ∨ l ∈ lines := by
  induction lines with
  | nil => simp [insertLine]
  | cons x lines ih =>
    unfold insertLine
    split
    · simp
    · split
      · next e => simp [e]
      · simp [ih, or_left_comm]

/-! #### Eviction and claim -/

theorem completeIndex_eq_some {f : FrameNo} {i : Nat} (h : m.completeIndex f = some i) :
    ∃ r, m.table[i]? = some r ∧ r.state = .complete ∧ r.frame = some f := by
  obtain ⟨inside, found, -⟩ := List.findIdx?_eq_some_iff_getElem.1 h
  simp only [Bool.and_eq_true, beq_iff_eq] at found
  exact ⟨_, List.getElem?_eq_getElem inside, found⟩

theorem completeIndex_ne_none {f : FrameNo} {i : Nat} {r : Slot} (hi : m.table[i]? = some r)
    (done : r.state = .complete) (frame : r.frame = some f) : m.completeIndex f ≠ none := by
  intro e
  have absent := List.findIdx?_eq_none_iff.1 e r (List.mem_of_getElem? hi)
  simp [done, frame] at absent

theorem evict_eq_some {k : Nat} (h : m.evict pin = some (k, m')) :
    ∃ f r, f ∈ m.complete ∧ m.table[k]? = some r ∧ r.state = .complete ∧ r.frame = some f ∧
      m' = { m with
        table := m.table.set k .freed, complete := m.complete.erase f, evicted := bump m.evicted } := by
  unfold SlotManager.evict at h
  split at h
  · exact nomatch h
  · next f oldest =>
    split at h
    · exact nomatch h
    · next i index =>
      cases h
      obtain ⟨r, hi, done, frame⟩ := completeIndex_eq_some index
      exact ⟨f, r, List.mem_of_find?_eq_some oldest, hi, done, frame, rfl⟩

/-- Where nothing can be evicted the pinned frame alone is complete. -/
theorem length_complete_of_evict_none (h : SlotFacts m.table m.complete shown slot accounted queue transfer)
    (none : m.evict pin = none) : m.complete.length ≤ 1 := by
  unfold SlotManager.evict at none
  split at none
  · next oldest =>
    have pinned (f : FrameNo) (hf : f ∈ m.complete) : pin = some f := by
      simpa using List.find?_eq_none.1 oldest f hf
    rcases complete : m.complete with _ | ⟨f, _ | ⟨g, rest⟩⟩
    · simp
    · simp
    · have nodup := h.nodup
      rw [complete] at nodup pinned
      have same := (pinned f (by simp)).symm.trans (pinned g (by simp))
      simp [Option.some.inj same] at nodup
  · next f oldest =>
    obtain ⟨i, r, hi, done, frame⟩ := (h.listed f).1 (List.mem_of_find?_eq_some oldest)
    split at none
    · next absent => exact (completeIndex_ne_none hi done frame absent).elim
    · exact nomatch none

theorem SlotFacts.evicted {k : Nat} (h : SlotFacts m.table m.complete shown slot accounted queue transfer)
    (e : m.evict pin = some (k, m')) : SlotFacts m'.table m'.complete shown slot accounted queue transfer := by
  obtain ⟨f, r, -, hk, done, frame, rfl⟩ := evict_eq_some e
  exact h.evict hk done frame

/-- A claim answers a slot in which the frame begins (R7). -/
theorem SlotFacts.claimed {n : FrameNo} {i : Nat}
    (h : SlotFacts m.table m.complete shown none accounted queue transfer) (e : m.claim n pin = some (i, m'))
    (past_shown : ∀ f, shown = some f → laterThan n f = true)
    (past_held : ∀ (j : Nat) (x : Slot), m.table[j]? = some x → receivesFrame x ∨ x.state = .complete →
      ∃ f, x.frame = some f ∧ laterThan n f = true) :
    SlotFacts m'.table m'.complete shown (some i) [] queue transfer := by
  unfold SlotManager.claim at e
  split at e
  · next j first =>
    cases e
    obtain ⟨inside, free, -⟩ := List.findIdx?_eq_some_iff_getElem.1 first
    exact h.claim (List.getElem?_eq_getElem inside) (by simpa using free) past_shown past_held
  · split at e
    · exact nomatch e
    · next j m₁ evicts =>
      cases e
      have h₁ := h.evicted evicts
      obtain ⟨f, r, -, hk, done, frame, rfl⟩ := evict_eq_some evicts
      have freed : (m.table.set i Slot.freed)[i]? = some .freed := (getElem?_set_some hk).2 (.inl ⟨rfl, rfl⟩)
      refine h₁.claim freed rfl past_shown fun j x hj k => ?_
      rcases (getElem?_set_some hk).1 hj with ⟨-, rfl⟩ | ⟨-, old⟩
      · simp [receivesFrame, Slot.freed] at k
      · exact past_held j x old k

theorem length_claim {n : FrameNo} {i : Nat} (e : m.claim n pin = some (i, m')) :
    m'.table.length = m.table.length ∧ m'.complete.length ≤ m.complete.length := by
  unfold SlotManager.claim at e
  split at e
  · cases e
    exact ⟨List.length_set, le_rfl⟩
  · split at e
    · exact nomatch e
    · next evicts =>
      cases e
      obtain ⟨f, r, -, -, -, -, rfl⟩ := evict_eq_some evicts
      exact ⟨by simp, List.length_erase_le⟩

/-! #### The check of R13 -/

/-- At most the COMPLETE slots have frames in the complete list. -/
theorem SlotFacts.length_complete (h : SlotFacts m.table m.complete shown slot accounted queue transfer) :
    m.complete.length ≤ m.table.countP (fun r => r.state == .complete) := by
  have inside : m.complete ⊆ (m.table.filter fun r => r.state == .complete).filterMap Slot.frame := by
    intro f hf
    obtain ⟨i, r, hi, done, frame⟩ := (h.listed f).1 hf
    exact List.mem_filterMap.2 ⟨r, List.mem_filter.2 ⟨List.mem_of_getElem? hi, by simp [done]⟩, frame⟩
  calc m.complete.length ≤ _ := (List.subperm_of_subset h.nodup inside).length_le
    _ ≤ _ := List.length_filterMap_le _ _
    _ = _ := List.countP_eq_length_filter.symm

theorem SlotFacts.checked (h : SlotFacts m.table m.complete shown slot accounted queue transfer) :
    SlotFacts (m.completionCheck pin).table (m.completionCheck pin).complete shown slot accounted queue transfer := by
  unfold SlotManager.completionCheck
  split
  · split
    · next evicts => exact h.evicted evicts
    · exact h
  · exact h

theorem length_completionCheck : (m.completionCheck pin).table.length = m.table.length := by
  unfold SlotManager.completionCheck
  split
  · split
    · next evicts =>
      obtain ⟨f, r, -, -, -, -, rfl⟩ := evict_eq_some evicts
      simp
    · rfl
  · rfl

/-- After the check one slot at least is not COMPLETE. -/
theorem sizes_completionCheck {c : Settings}
    (h : SlotFacts m.table m.complete shown slot accounted queue transfer) (three : 3 ≤ c.slotCount)
    (length : m.table.length = c.slotCount) : (m.completionCheck pin).complete.length ≤ c.slotCount - 1 := by
  have fewer := h.length_complete
  have most := List.countP_le_length (p := fun r : Slot => r.state == .complete) (l := m.table)
  unfold SlotManager.completionCheck
  split
  · split
    · next evicts =>
      obtain ⟨f, r, hf, -, -, -, rfl⟩ := evict_eq_some evicts
      have := List.length_erase_of_mem hf
      simp only
      omega
    · next none =>
      have := length_complete_of_evict_none h none
      omega
  · next open_slot =>
    have := (List.countP_lt_length_iff (p := fun r : Slot => r.state == .complete) (l := m.table)).2
      (by simpa using open_slot)
    omega

end Sys2Proof

/-! ### Line writes and closes at the Slot Manager (R3, R10, R12, R154) -/

namespace Sys2Proof

open Sys2Proof.Machine

variable {m : SlotManager} {pin : Option FrameNo} {shown : Option FrameNo} {slot : Option Nat}
  {accounted : List Nat} {queue : List LineWrite} {transfer : Option Transfer}

/-! #### The completion of a line write -/

theorem writeDone_of_filling {i line : Nat} {r : Slot} (hi : m.table[i]? = some r) (fills : r.state = .filling) :
    m.writeDone pin i line =
      { m with table := m.table.set i { r with written := insertLine line r.written, pending := r.pending - 1 } } := by
  simp [SlotManager.writeDone, hi, fills]

theorem writeDone_of_closing {i line : Nat} {r : Slot} (hi : m.table[i]? = some r) (closes : r.state = .closing)
    (more : 1 < r.pending) :
    m.writeDone pin i line =
      { m with table := m.table.set i { r with written := insertLine line r.written, pending := r.pending - 1 } } := by
  simp [SlotManager.writeDone, hi, closes, more]

theorem writeDone_of_last {i line : Nat} {r : Slot} (hi : m.table[i]? = some r) (closes : r.state = .closing)
    (last : r.pending ≤ 1) :
    m.writeDone pin i line =
      (m.becomeComplete i { r with written := insertLine line r.written }).completionCheck pin := by
  simp [SlotManager.writeDone, hi, closes, Nat.not_lt.2 last]

theorem writeDone_of_draining {i line : Nat} {r : Slot} (hi : m.table[i]? = some r) (drains : r.state = .draining) :
    m.writeDone pin i line = { m with table := m.table.set i .freed } := by
  simp [SlotManager.writeDone, hi, drains]

/-- The line of a slot that still receives is written, and the slot goes on receiving. -/
theorem SlotFacts.lineWritten {w : LineWrite} {r : Slot} {r' : Slot}
    (h : SlotFacts m.table m.complete shown slot accounted queue (some (.write w)))
    (hi : m.table[w.slot]? = some r) (receives : receivesFrame r) (more : r.state = .closing → 1 < r.pending)
    (e : r' = { r with written := insertLine w.line r.written, pending := r.pending - 1 }) :
    SlotFacts (m.table.set w.slot r') m.complete shown slot accounted queue none := by
  subst e
  have waiting := h.pending w.slot r hi receives
  have order := List.pairwise_cons.1 h.in_order
  simp only [Transfer.held, List.singleton_append, List.countP_cons, beq_self_eq_true, if_true] at waiting
  refine h.receive hi receives rfl (.inl ⟨rfl, rfl⟩) ?_ ?_ ?_ (fun v hv => .inl hv) nofun order.2 ?_
    (fun _ _ _ => rfl) ?_ (fun v hv => .inl (List.mem_cons_of_mem _ hv))
  · simp only [Transfer.held, List.nil_append]
    omega
  · intro j ne
    simp [Transfer.held, Ne.symm ne]
  · intro closes
    have := more closes
    simp only
    omega
  · intro fills l hl
    rcases h.written w.slot r fills hi l hl with old | ⟨v, hv, here, line⟩
    · exact .inl (mem_insertLine.2 (.inr old))
    · rcases List.mem_cons.1 hv with rfl | hv
      · exact .inl (mem_insertLine.2 (.inl line.symm))
      · exact .inr ⟨v, hv, here, line⟩
  · exact fun _ v hv ne x hx rec => order.1 v hv r x (Ne.symm ne) hi hx receives rec

/-- The last line write of a CLOSING slot is done, and the slot is COMPLETE. -/
theorem SlotFacts.lastWritten {w : LineWrite} {r : Slot} {lines : List Nat}
    (h : SlotFacts m.table m.complete shown slot accounted queue (some (.write w)))
    (hi : m.table[w.slot]? = some r) (closes : r.state = .closing) (last : r.pending = 1) :
    SlotFacts (m.becomeComplete w.slot { r with written := lines }).table
      (m.becomeComplete w.slot { r with written := lines }).complete shown slot accounted queue none := by
  have order := (List.pairwise_cons.1 h.in_order).1
  have waiting := h.pending w.slot r hi (.inr closes)
  simp only [Transfer.held, List.singleton_append, List.countP_cons, beq_self_eq_true, if_true] at waiting
  have done : queue.countP (fun v => v.slot == w.slot) = 0 := by omega
  cases frame : r.frame with
  | none => exact nomatch closes.symm.trans ((h.free_iff _ r hi).2 frame)
  | some f =>
    have completes := h.completes (slot' := slot) (accounted' := accounted) (queue' := queue) (transfer' := none) hi
      (.inr closes) frame (r' := { r with state := .complete, written := lines, pending := 0 }) rfl frame
      (.inr ⟨closes, rfl, rfl⟩) ?_ (List.sublist_cons_self _ _) ?_ ?_ nofun
    · simpa [SlotManager.becomeComplete, frame] using completes
    · intro j x ne hj rec
      rcases rec with fills | waits
      · exact h.later_closing w.slot j r x hi hj closes fills
      · have some_write := h.closing_waits j x hj waits
        rw [h.pending j x hj (.inr waits), List.countP_pos_iff] at some_write
        obtain ⟨v, hv, here⟩ := some_write
        simp only [beq_iff_eq] at here
        rcases List.mem_cons.1 hv with rfl | hv
        · exact (ne here.symm).elim
        · exact order v hv r x (fun e => ne (here.symm.trans e.symm)) hi (here ▸ hj) (.inr closes) (.inr waits)
    · intro j ne
      simp [Transfer.held, Ne.symm ne]
    · intro v hv
      exact ⟨hv, fun e => by simpa [e] using List.countP_eq_zero.1 done v hv⟩

/-- The line write in progress completes (R12). -/
theorem SlotFacts.writeDone {w : LineWrite}
    (h : SlotFacts m.table m.complete shown slot accounted queue (some (.write w))) :
    SlotFacts (m.writeDone pin w.slot w.line).table (m.writeDone pin w.slot w.line).complete shown slot accounted queue
      none := by
  obtain ⟨r, hi, k⟩ := h.writing w rfl
  rcases k with (fills | closes) | drains
  · rw [writeDone_of_filling hi fills]
    exact h.lineWritten hi (.inl fills) (fun k => nomatch fills.symm.trans k) rfl
  · have waits := h.closing_waits _ r hi closes
    by_cases more : 1 < r.pending
    · rw [writeDone_of_closing hi closes more]
      exact h.lineWritten hi (.inr closes) (fun _ => more) rfl
    · rw [writeDone_of_last hi closes (by omega)]
      exact (h.lastWritten hi closes (by omega)).checked
  · rw [writeDone_of_draining hi drains]
    refine h.dropAt hi dropped_freed (.refl _) (by simp [drains]) (.inl ⟨rfl, rfl, by simp [drains]⟩)
      (List.sublist_cons_self _ _) ?_ ?_ nofun
    · intro j ne
      simp [Transfer.held, Ne.symm ne]
    · intro v hv
      refine ⟨hv, fun e => ?_⟩
      obtain ⟨x, hx, rec⟩ := h.queued v hv
      rw [e, hi] at hx
      cases hx
      simp [receivesFrame, drains] at rec

/-- After a completion and its check at most one frame fewer is complete than there are slots. -/
theorem sizes_completed {m₁ : SlotManager} {c : Settings}
    (h : SlotFacts m₁.table m₁.complete shown slot accounted queue transfer)
    (length : m₁.table.length = m.table.length) (sizes : SlotSizes m.table m.complete (some c)) :
    SlotSizes (m₁.completionCheck pin).table (m₁.completionCheck pin).complete (some c) := by
  obtain ⟨-, lines, low, high, size⟩ := sizes.2 c rfl
  have one_fewer := sizes_completionCheck (pin := pin) h low (length.trans size)
  refine ⟨by omega, fun c' k => ?_⟩
  cases k
  exact ⟨one_fewer, lines, low, high, length_completionCheck.trans (length.trans size)⟩

/-- So it is after a completed write. -/
theorem sizes_writeDone {w : LineWrite} {c : Settings}
    (h : SlotFacts m.table m.complete shown slot accounted queue (some (.write w)))
    (sizes : SlotSizes m.table m.complete (some c)) :
    SlotSizes (m.writeDone pin w.slot w.line).table (m.writeDone pin w.slot w.line).complete (some c) := by
  obtain ⟨r, hi, k⟩ := h.writing w rfl
  rcases k with (fills | closes) | drains
  · rw [writeDone_of_filling hi fills]
    exact sizes.of_length List.length_set le_rfl
  · by_cases more : 1 < r.pending
    · rw [writeDone_of_closing hi closes more]
      exact sizes.of_length List.length_set le_rfl
    · have waits := h.closing_waits _ r hi closes
      rw [writeDone_of_last hi closes (by omega)]
      exact sizes_completed (h.lastWritten hi closes (by omega)) List.length_set sizes
  · rw [writeDone_of_draining hi drains]
    exact sizes.of_length List.length_set le_rfl

/-! #### A good close -/

/-- The lines of a frame that is whole and has no write left are written, and then no slot is CLOSING. -/
theorem SlotFacts.not_closing {i : Nat} {r : Slot} (h : SlotFacts m.table m.complete shown (some i) accounted queue transfer)
    (hi : m.table[i]? = some r) (done : r.pending = 0) (line : accounted ≠ []) {j : Nat} {x : Slot}
    (hj : m.table[j]? = some x) : x.state ≠ .closing := by
  intro closes
  have fills : r.state = .filling := (h.filling_iff i r hi).2 rfl
  have no_write := h.pending i r hi (.inl fills)
  rw [done, eq_comm, List.countP_eq_zero] at no_write
  have begun : r.written ≠ [] := by
    obtain ⟨l, hl⟩ := List.exists_mem_of_ne_nil _ line
    rcases h.written i r rfl hi l hl with k | ⟨w, hw, here, -⟩
    · exact List.ne_nil_of_mem k
    · exact absurd here (by simpa using no_write w hw)
  have some_write := h.closing_waits j x hj closes
  rw [h.pending j x hj (.inr closes), List.countP_pos_iff] at some_write
  obtain ⟨w, hw, here⟩ := some_write
  simp only [beq_iff_eq] at here
  obtain ⟨f, g, hf, hg, later⟩ :=
    h.began i r hi (.inl fills) begun w hw (by simpa using no_write w hw) x (here ▸ hj) (.inr closes)
  obtain ⟨g', f', hg', hf', earlier⟩ := h.later_closing j i x r hj hi closes fills
  rw [hf] at hf'
  rw [hg] at hg'
  cases hf'
  cases hg'
  simp [laterThan_asymm later] at earlier

theorem closeGood_of_waiting {i : Nat} {r : Slot} (hi : m.table[i]? = some r) (waits : 0 < r.pending) :
    m.closeGood pin i = { m with table := m.table.set i { r with state := .closing } } := by
  simp [SlotManager.closeGood, hi, waits]

theorem closeGood_of_done {i : Nat} {r : Slot} (hi : m.table[i]? = some r) (done : r.pending = 0) :
    m.closeGood pin i = (m.becomeComplete i r).completionCheck pin := by
  simp [SlotManager.closeGood, hi, done]

/-- A slot whose frame is whole, with no write pending, is COMPLETE. -/
theorem SlotFacts.closed {i : Nat} {r : Slot} {accounted' : List Nat}
    (h : SlotFacts m.table m.complete shown (some i) accounted queue transfer) (hi : m.table[i]? = some r)
    (done : r.pending = 0) (line : accounted ≠ []) :
    SlotFacts (m.becomeComplete i r).table (m.becomeComplete i r).complete shown none accounted' queue transfer := by
  have fills : r.state = .filling := (h.filling_iff i r hi).2 rfl
  have no_write := h.pending i r hi (.inl fills)
  rw [done, eq_comm, List.countP_eq_zero] at no_write
  cases frame : r.frame with
  | none => exact nomatch fills.symm.trans ((h.free_iff _ r hi).2 frame)
  | some f =>
    have completes := h.completes (slot' := none) (accounted' := accounted') (queue' := queue) (transfer' := transfer)
      hi (.inl fills) frame (r' := { r with state := .complete, pending := 0 }) rfl frame (.inl ⟨fills, rfl⟩) ?_
      (.refl _) (fun _ _ => rfl) ?_ ?_
    · simpa [SlotManager.becomeComplete, frame] using completes
    · intro j x ne hj rec
      rcases rec with k | k
      · exact (ne (Option.some.inj ((h.filling_iff j x hj).1 k)).symm).elim
      · exact (h.not_closing hi done line hj k).elim
    · exact fun w hw => ⟨hw, by simpa using no_write w (List.mem_append_right _ hw)⟩
    · rintro w rfl
      exact ⟨rfl, by simpa using no_write w List.mem_cons_self⟩

/-- A slot whose frame is whole is closed: CLOSING while writes are pending, otherwise COMPLETE (R10). -/
theorem SlotFacts.closeGood {i : Nat} {accounted' : List Nat}
    (h : SlotFacts m.table m.complete shown (some i) accounted queue transfer) (line : accounted ≠ []) :
    SlotFacts (m.closeGood pin i).table (m.closeGood pin i).complete shown none accounted' queue transfer := by
  obtain ⟨r, hi⟩ : ∃ r, m.table[i]? = some r := ⟨m.table[i]'(h.inside i rfl), List.getElem?_eq_getElem _⟩
  have fills : r.state = .filling := (h.filling_iff i r hi).2 rfl
  rcases Nat.eq_zero_or_pos r.pending with done | waits
  · rw [closeGood_of_done hi done]
    exact (h.closed hi done line).checked
  · rw [closeGood_of_waiting hi waits]
    refine h.receive hi (.inl fills) rfl (.inr ⟨fills, rfl, rfl⟩) (h.pending i r hi (.inl fills)) (fun _ _ => rfl)
      (fun _ => waits) (fun w hw => .inl hw) (fun w hw => .inl hw) h.in_order nofun nofun ?_ (fun w hw => .inl hw)
    exact h.began i r hi (.inl fills)

theorem sizes_closeGood {i : Nat} {c : Settings}
    (h : SlotFacts m.table m.complete shown (some i) accounted queue transfer) (line : accounted ≠ [])
    (sizes : SlotSizes m.table m.complete (some c)) :
    SlotSizes (m.closeGood pin i).table (m.closeGood pin i).complete (some c) := by
  obtain ⟨r, hi⟩ : ∃ r, m.table[i]? = some r := ⟨m.table[i]'(h.inside i rfl), List.getElem?_eq_getElem _⟩
  rcases Nat.eq_zero_or_pos r.pending with done | waits
  · rw [closeGood_of_done hi done]
    exact sizes_completed (h.closed (accounted' := []) hi done line) List.length_set sizes
  · rw [closeGood_of_waiting hi waits]
    exact sizes.of_length List.length_set le_rfl

end Sys2Proof

/-! ### The slot laws at every step (R5, R16, R154) -/

namespace Sys2Proof

open Sys2Proof.Machine

variable {s t : State} {c : Settings}

/-! #### What the laws read -/

theorem SlotInvariant.of_same (h : SlotInvariant s) (table : t.slots.table = s.slots.table)
    (complete : t.slots.complete = s.slots.complete) (shown : t.presentation.shown = s.presentation.shown)
    (slot : t.ingest.slot = s.ingest.slot) (state : t.ingest.state = s.ingest.state)
    (accounted : t.ingest.accounted = s.ingest.accounted) (queue : t.ingest.queue = s.ingest.queue)
    (transfer : t.transfer = s.transfer) (settled : t.loader.settled = s.loader.settled) : SlotInvariant t := by
  unfold SlotInvariant SlotFacts.At at *
  rwa [table, complete, shown, slot, state, accounted, queue, transfer, settled]

theorem SlotInvariant.blind : Blind [.held, .now, .timing, .role, .roster, .ringIn, .ringOut, .link, .scan, .report,
    .notices, .mem, .draws] SlotInvariant := by
  intro s t f h
  have slots : s.slots = t.slots := f.2 .slots (by decide)
  have presentation : s.presentation = t.presentation := f.2 .presentation (by decide)
  have ingest : s.ingest = t.ingest := f.2 .ingest (by decide)
  have transfer : s.transfer = t.transfer := f.2 .transfer (by decide)
  have loader : s.loader = t.loader := f.2 .loader (by decide)
  exact h.of_same (by rw [slots]) (by rw [slots]) (by rw [presentation]) (by rw [ingest]) (by rw [ingest])
    (by rw [ingest]) (by rw [ingest]) transfer.symm (by rw [loader])

/-- What the presentation controller takes up or composes leaves the shown frame, and so the laws. -/
theorem SlotInvariant.of_shown {l : List Part} (h : SlotInvariant s) (f : Frame l s t)
    (shown : t.presentation.shown = s.presentation.shown)
    (slots : .slots ∉ l := by decide) (ingest : .ingest ∉ l := by decide) (transfer : .transfer ∉ l := by decide)
    (loader : .loader ∉ l := by decide) : SlotInvariant t := by
  have slots : s.slots = t.slots := f.2 .slots slots
  have ingest : s.ingest = t.ingest := f.2 .ingest ingest
  have transfer : s.transfer = t.transfer := f.2 .transfer transfer
  have loader : s.loader = t.loader := f.2 .loader loader
  exact h.of_same (by rw [slots]) (by rw [slots]) shown (by rw [ingest]) (by rw [ingest]) (by rw [ingest])
    (by rw [ingest]) transfer.symm (by rw [loader])

/-! #### Grants and transfers -/

theorem SlotInvariant.grant (h : SlotInvariant s) : SlotInvariant s.grant := by
  obtain ⟨facts, rest⟩ := h
  unfold SlotFacts.At at facts
  unfold State.grant
  split
  · exact ⟨facts, rest⟩
  · next idle =>
    rw [idle] at facts
    split
    · exact ⟨facts.regrant rfl (fun _ hw => hw) nofun, rest⟩
    · split
      · exact ⟨by rwa [SlotFacts.At, idle], rest⟩
      · next w ws queue =>
        rw [queue] at facts
        refine ⟨facts.regrant rfl (fun _ hw => List.mem_cons_of_mem _ hw) fun v hv => .inr ?_, rest⟩
        cases hv
        exact List.mem_cons_self

theorem SlotInvariant.requestFetch {k : Nat} (h : SlotInvariant s) : SlotInvariant (s.requestFetch k) :=
  SlotInvariant.grant (s := s.setScan _) h

theorem SlotInvariant.beginLine {f : Nat} (h : SlotInvariant s) : SlotInvariant (s.beginLine c f) := by
  unfold State.beginLine
  split
  · split
    · exact h.requestFetch
    · split
      · exact h.requestFetch
      · exact h
  · split
    · dsimp only
      split
      · exact SlotInvariant.requestFetch (s := s.setScan _) h
      · exact h
    · exact h

theorem SlotInvariant.nextLine (h : SlotInvariant s) : SlotInvariant s.nextLine := by
  unfold State.nextLine
  split
  · dsimp only
    split
    · refine SlotInvariant.beginLine ?_
      split <;> exact h
    · exact h
  · exact h

theorem SlotInvariant.transferDone {x : Transfer} (transfer : s.transfer = some x) (settled : s.loader.settled = some c)
    (h : SlotInvariant s) : SlotInvariant (s.transferDone c x) := by
  obtain ⟨facts, frame, sizes⟩ := h
  unfold SlotFacts.At at facts
  rw [transfer] at facts
  rw [settled] at sizes
  cases x with
  | write w =>
    refine SlotInvariant.grant (s := State.setSlots _ _) ⟨facts.writeDone, frame, ?_⟩
    have written : SlotSizes _ _ _ := sizes_writeDone (pin := s.pin) facts sizes
    rw [← settled] at written
    exact written
  | fetch i line =>
    refine SlotInvariant.grant (s := State.setScan _ _) ⟨facts.regrant rfl (fun _ hw => hw) nofun, frame, ?_⟩
    rw [← settled] at sizes
    exact sizes

/-! #### The presentation step -/

theorem SlotInvariant.presents {f : FrameNo} {i : Nat} {m : SlotManager} (e : s.slots.present f = some (i, m))
    (h : SlotInvariant s) : SlotInvariant (s.presents f i m) := by
  obtain ⟨facts, frame, sizes⟩ := h
  unfold SlotManager.present at e
  split at e
  · exact nomatch e
  · next j index =>
    cases e
    obtain ⟨r, hi, done, fr⟩ := completeIndex_eq_some index
    exact SlotInvariant.grant (s := State.setScan _ _)
      ⟨facts.present hi done fr, frame, sizes.of_length (List.length_map _) (List.length_filter_le _ _)⟩

theorem SlotInvariant.presentationStep (h : SlotInvariant s) : SlotInvariant s.presentationStep := by
  unfold State.presentationStep
  split
  · exact h
  · split
    · unfold State.applyDecision
      split
      · exact h
      · split
        · exact h
        · split
          · next answered => exact h.presents answered
          · exact h
    · split <;> exact h

theorem SlotInvariant.framePart {cut : Bool} {d : Tick} {x : FramePart} (h : SlotInvariant s) :
    SlotInvariant (s.framePart c cut d x) := by
  cases x with
  | role => exact SlotInvariant.blind.keeps (.roleFrameStart s c) h
  | settle => exact h
  | present => exact h.presentationStep
  | firstLine => exact h.beginLine
  | compose => exact h.of_shown (.composition s c d) (shown_composition d)
  | holds => exact h
  | offer => exact SlotInvariant.blind.keeps (.standingOffer s) h
  | expire => exact SlotInvariant.blind.keeps (.expireOld s) h

theorem SlotInvariant.frameStartAt (s : State) (t : Tick) (order : FrameOrder) (h : SlotInvariant s) :
    SlotInvariant (s.frameStartAt t order) :=
  frameStartAt_keeps (fun s c t _ h => SlotInvariant.blind.keeps (.timingFrameStart s c t) h)
    (fun _ _ _ _ _ _ h => h.framePart) t order h

/-! #### The end of a frame in progress -/

theorem writing_iff (s : State) (i : Nat) : Writing s.transfer i (s.writing i) := by
  unfold Writing State.writing
  split
  · next w transfer => simp [transfer]
  · next transfer => simp [transfer]
  · next transfer => simp [transfer]

/-- Where no frame is in progress the assembler may change but for its queue. -/
theorem SlotInvariant.idle {u : Assembler} (absent : s.ingest.slot = none) (slot : u.slot = none)
    (state : u.state ≠ .inFrame) (queue : u.queue = s.ingest.queue) (h : SlotInvariant s) :
    SlotInvariant (s.setIngest u) := by
  obtain ⟨facts, frame, sizes⟩ := h
  unfold SlotFacts.At at facts
  rw [absent] at facts
  refine ⟨?_, by simp [slot, state], sizes⟩
  have here := facts.account u.accounted
  rw [← slot, ← queue] at here
  exact here

theorem SlotInvariant.idleError {u : Assembler} (absent : s.ingest.slot = none) (slot : u.slot = none)
    (state : u.state ≠ .inFrame) (queue : u.queue = s.ingest.queue) (h : SlotInvariant s) :
    SlotInvariant (s.ingestError u) :=
  SlotInvariant.blind.keeps (.raise _ _) (h.idle absent slot state queue)

/-- The frame in progress is abandoned, and the assembler leaves it. -/
theorem SlotInvariant.abandoned {u : Assembler} (slot : u.slot = none) (state : u.state ≠ .inFrame)
    (queue : u.queue = s.abandonCurrent.ingest.queue) (h : SlotInvariant s) :
    SlotInvariant (s.abandonCurrent.setIngest u) := by
  unfold State.abandonCurrent at queue ⊢
  split at queue
  · next i present =>
    obtain ⟨facts, frame, sizes⟩ := h
    unfold SlotFacts.At at facts
    rw [present] at facts
    refine ⟨?_, by simp [slot, state], sizes.of_length (List.length_modify ..) le_rfl⟩
    have here := facts.abandon (accounted' := u.accounted) (writing_iff s i)
    unfold SlotFacts.At
    rw [State.setIngest_ingest, slot, queue]
    exact here
  · next absent => exact h.idle absent slot state queue

theorem SlotInvariant.not_in_frame (h : SlotInvariant s) (state : s.ingest.state ≠ .inFrame) :
    s.ingest.slot = none := by
  obtain ⟨-, frame, -⟩ := h
  cases slot : s.ingest.slot with
  | none => rfl
  | some i => exact (state (frame.1 (by simp [slot]))).elim

theorem SlotInvariant.endInProgress (h : SlotInvariant s) : SlotInvariant s.endInProgress := by
  unfold State.endInProgress
  split
  · exact h.abandoned rfl (by simp [Assembler.leaveFrame]) rfl
  · exact h

theorem slot_endInProgress (h : SlotInvariant s) : s.endInProgress.ingest.slot = none := by
  unfold State.endInProgress
  split
  · rfl
  · next state => exact h.not_in_frame state

theorem SlotInvariant.assemblerLoss (h : SlotInvariant s) : SlotInvariant s.assemblerLoss := by
  unfold State.assemblerLoss
  split
  · exact h
  · next state =>
    exact h.idle (h.not_in_frame (by simp [state])) rfl (by simp [Assembler.leaveFrame]) rfl
  · exact h.endInProgress

theorem SlotInvariant.takeLinkReset (h : SlotInvariant s) : SlotInvariant s.takeLinkReset := by
  obtain ⟨facts, -, sizes⟩ := h
  exact ⟨facts.reset (writing_iff s), ⟨nofun, nofun⟩, sizes.of_length List.length_mapIdx le_rfl⟩

/-! #### FRAME_BEGIN -/

theorem SlotInvariant.takeFrameBegin {n : FrameNo} (h : SlotInvariant s) : SlotInvariant (s.takeFrameBegin n) := by
  have ended := h.endInProgress
  have absent := slot_endInProgress h
  unfold State.takeFrameBegin
  dsimp only
  split
  · exact ended.idleError absent rfl (by simp [Assembler.leaveFrame]) rfl
  · next fresh =>
    split
    · exact ended.idleError absent rfl (by simp [Assembler.leaveFrame]) rfl
    · next i m claimed =>
      obtain ⟨facts, -, sizes⟩ := ended
      unfold SlotFacts.At at facts
      rw [absent] at facts
      rw [staleFrame_iff, not_or] at fresh
      obtain ⟨past_shown, past_held⟩ := fresh
      obtain ⟨table, complete⟩ := length_claim claimed
      refine ⟨facts.claimed claimed ?_ ?_, by simp [Assembler.leaveFrame], sizes.of_length table complete⟩
      · exact fun f hf => by simpa using fun k => past_shown ⟨f, hf, k⟩
      · intro j x hj k
        cases fr : x.frame with
        | none =>
          have free := (facts.free_iff j x hj).2 fr
          simp [receivesFrame, free] at k
        | some f =>
          refine ⟨f, rfl, ?_⟩
          by_contra late
          exact past_held ⟨x, List.mem_of_getElem? hj, or_assoc.1 k, f, fr, by simpa using late⟩

end Sys2Proof

/-! ### LINE and FRAME_END at the slot table (R4, R10, R154, R156) -/

namespace Sys2Proof

open Sys2Proof.Machine

variable {m : List Slot} {complete : List FrameNo} {shown : Option FrameNo} {slot : Option Nat}
  {accounted : List Nat} {queue : List LineWrite} {transfer : Option Transfer} {s : State} {c : Settings}

/-! #### The slot being filled -/

/-- DAMAGED is set on the slot being filled (R4). -/
theorem SlotFacts.damage {i : Nat} (h : SlotFacts m complete shown (some i) accounted queue transfer) :
    SlotFacts (m.modify i fun r => { r with damaged := true }) complete shown (some i) accounted queue transfer := by
  obtain ⟨r, hi⟩ : ∃ r, m[i]? = some r := ⟨m[i]'(h.inside i rfl), List.getElem?_eq_getElem _⟩
  have receives : receivesFrame r := .inl ((h.filling_iff i r hi).2 rfl)
  rw [modify_eq_set _ hi]
  exact h.receive hi receives rfl (.inl ⟨rfl, rfl⟩) (h.pending i r hi receives) (fun _ _ => rfl)
    (h.closing_waits i r hi) (fun _ => .inl) (fun _ => .inl) h.in_order (fun _ => h.written i r rfl hi)
    (fun _ _ _ => rfl) (h.began i r hi receives) (fun _ => .inl)

/-- A line write of the slot being filled joins the queue (R154). -/
theorem SlotFacts.offered {w : LineWrite}
    (h : SlotFacts m complete shown (some w.slot) accounted queue transfer) :
    SlotFacts (m.modify w.slot fun r => { r with pending := r.pending + 1 }) complete shown (some w.slot)
      (insertLine w.line accounted) (queue ++ [w]) transfer := by
  obtain ⟨r, hi⟩ : ∃ r, m[w.slot]? = some r := ⟨m[w.slot]'(h.inside _ rfl), List.getElem?_eq_getElem _⟩
  have fills : r.state = .filling := (h.filling_iff _ r hi).2 rfl
  have split {v : LineWrite} (hv : v ∈ Transfer.held transfer ++ (queue ++ [w])) :
      v ∈ Transfer.held transfer ++ queue ∨ v = w := by
    rwa [← List.append_assoc, List.mem_append, List.mem_singleton] at hv
  rw [modify_eq_set _ hi]
  refine h.receive hi (.inl fills) rfl (.inl ⟨rfl, rfl⟩) ?_ ?_ (by simp [fills]) ?_ (fun _ => .inl) ?_ ?_
    (fun _ same ne => (ne (Option.some.inj same).symm).elim) ?_ ?_
  · simp [← List.append_assoc, h.pending _ r hi (.inl fills)]
  · intro j ne
    simp [Ne.symm ne]
  · intro v hv
    rw [List.mem_append, List.mem_singleton] at hv
    exact hv.imp_right fun e => by rw [e]
  · rw [← List.append_assoc, List.pairwise_append]
    refine ⟨h.in_order, List.pairwise_singleton _ _, fun v _ w' hw' x q ne hx hq kx _ => ?_⟩
    rw [List.mem_singleton] at hw'
    subst hw'
    rw [hi] at hq
    cases hq
    have closes : x.state = .closing := kx.resolve_left fun k =>
      ne (Option.some.inj ((h.filling_iff _ x hx).1 k)).symm
    exact h.later_closing _ _ x r hx hi closes fills
  · intro _ l hl
    rcases mem_insertLine.1 hl with rfl | hl
    · exact .inr ⟨w, by simp, rfl, rfl⟩
    · refine (h.written _ r rfl hi l hl).imp_right fun ⟨v, hv, here, line⟩ => ⟨v, ?_, here, line⟩
      rw [← List.append_assoc]
      exact List.mem_append_left _ hv
  · intro begun v hv ne
    exact h.began _ r hi (.inl fills) begun v ((split hv).resolve_right fun e => ne (by rw [e])) ne
  · exact fun v hv => (split hv).imp_right fun e => ⟨by rw [e], fills⟩

/-! #### Errors -/

theorem SlotInvariant.ingestError {u : Assembler} (h : SlotInvariant s) (slot : u.slot = s.ingest.slot)
    (state : u.state = s.ingest.state) (accounted : u.accounted = s.ingest.accounted)
    (queue : u.queue = s.ingest.queue) : SlotInvariant (s.ingestError u) :=
  h.of_same rfl rfl rfl slot state accounted queue rfl rfl

theorem SlotInvariant.damageCurrent (h : SlotInvariant s) : SlotInvariant s.damageCurrent := by
  unfold State.damageCurrent
  split
  · next i present =>
    obtain ⟨facts, frame, sizes⟩ := h
    unfold SlotFacts.At at facts
    rw [present] at facts
    refine ⟨?_, frame, sizes.of_length (List.length_modify ..) le_rfl⟩
    have here := facts.damage
    rw [← present] at here
    exact here
  · exact h

theorem SlotInvariant.abandonLine (h : SlotInvariant s) : SlotInvariant s.abandonLine :=
  .damageCurrent (s := State.ingestError _ _) (h.ingestError rfl rfl rfl rfl)

theorem SlotInvariant.rangeError (h : SlotInvariant s) : SlotInvariant s.rangeError :=
  .damageCurrent (s := State.ingestError _ _) (h.ingestError rfl rfl rfl rfl)

theorem SlotInvariant.orderError (h : SlotInvariant s) : SlotInvariant s.orderError :=
  .damageCurrent (s := State.ingestError _ _) (h.ingestError rfl rfl rfl rfl)

/-! #### LINE -/

theorem SlotInvariant.offerLine {line : Nat} {pixels : List Pixel} (h : SlotInvariant s) :
    SlotInvariant (s.offerLine line pixels) := by
  unfold State.offerLine
  split
  · exact h
  · next i present =>
    split
    · obtain ⟨facts, frame, sizes⟩ := h
      unfold SlotFacts.At at facts
      rw [present] at facts
      refine SlotInvariant.grant (s := State.setSlots _ _) ⟨?_, frame, sizes.of_length (List.length_modify ..) le_rfl⟩
      have here := facts.offered (w := { slot := i, line := line, pixels := pixels })
      rw [SlotFacts.At]
      simp only [State.setSlots_ingest, State.setIngest_ingest, present]
      exact here
    · exact .damageCurrent (s := State.ingestError _ _) (h.ingestError rfl rfl rfl rfl)

theorem SlotInvariant.fillLine {line first : Nat} {before pixels : List Pixel} (h : SlotInvariant s) :
    SlotInvariant (s.fillLine c line first before pixels) := by
  unfold State.fillLine
  split
  · exact h.offerLine
  · exact h

theorem SlotInvariant.placeFresh {line first : Nat} {pixels : List Pixel} (h : SlotInvariant s) :
    SlotInvariant (s.placeFresh c line first pixels) := by
  unfold State.placeFresh
  split
  · exact SlotInvariant.fillLine (s := State.setIngest _ _) h
  · exact h.orderError

theorem SlotInvariant.placeSegment {line first : Nat} {pixels : List Pixel} (h : SlotInvariant s) :
    SlotInvariant (s.placeSegment c line first pixels) := by
  unfold State.placeSegment
  split
  · exact h.placeFresh
  · split
    · exact h.abandonLine.placeFresh
    · split
      · exact h.fillLine
      · exact h.orderError.abandonLine

theorem SlotInvariant.takeLine {line first : Nat} {payload : List Byte} (h : SlotInvariant s) :
    SlotInvariant (s.takeLine c line first payload) := by
  unfold State.takeLine State.takeSegment
  split
  · exact h.ingestError rfl rfl rfl rfl
  · exact h
  · split
    · exact h.rangeError
    · split
      · exact h.ingestError rfl rfl rfl rfl
      · split
        · exact h.rangeError
        · exact h.placeSegment

/-! #### FRAME_END -/

/-- A good frame has a line. -/
theorem accounted_of_closesGood {i : Nat} (lines : 1 ≤ c.h) (good : s.closesGood c i = true) :
    s.ingest.accounted ≠ [] := by
  simp only [State.closesGood, Bool.and_eq_true, beq_iff_eq] at good
  rw [good.2, ne_eq, List.range_eq_nil]
  omega

theorem SlotInvariant.closeFrame {i : Nat} (settled : s.loader.settled = some c) (present : s.ingest.slot = some i)
    (h : SlotInvariant s) : SlotInvariant (s.closeFrame c i) := by
  unfold State.closeFrame
  split
  · next good =>
    obtain ⟨facts, frame, sizes⟩ := h
    unfold SlotFacts.At at facts
    rw [present] at facts
    rw [settled] at sizes
    have line := accounted_of_closesGood (sizes.2 c rfl).2.1 good
    refine ⟨facts.closeGood line, by simp [Assembler.leaveFrame], ?_⟩
    have closed : SlotSizes _ _ _ := sizes_closeGood (pin := s.pin) facts line sizes
    rw [← settled] at closed
    exact closed
  · have abandoned : s.abandonSlot i = s.abandonCurrent := by simp [State.abandonCurrent, present]
    rw [abandoned]
    exact SlotInvariant.blind.keeps (.raise _ _) (h.abandoned rfl (by simp [Assembler.leaveFrame]) rfl)

theorem SlotInvariant.takeFrameEnd {n : FrameNo} (settled : s.loader.settled = some c) (h : SlotInvariant s) :
    SlotInvariant (s.takeFrameEnd c n) := by
  unfold State.takeFrameEnd
  split
  · next state => exact h.idleError (h.not_in_frame (by simp [state])) rfl (by simp [Assembler.leaveFrame]) rfl
  · next state =>
    have absent := h.not_in_frame (by simp [state])
    split
    · exact h.idle absent rfl (by simp [Assembler.leaveFrame]) rfl
    · exact h.idleError absent rfl (by simp [Assembler.leaveFrame]) rfl
  · split
    · have closed : SlotInvariant (if s.ingest.openLine.isSome then s.abandonLine else s) := by
        split
        · exact h.abandonLine
        · exact h
      have loader : (if s.ingest.openLine.isSome then s.abandonLine else s).loader = s.loader := by
        split
        · exact ((Frame.abandonLine s).2 .loader (by decide)).symm
        · rfl
      dsimp only
      split
      · next present => exact closed.closeFrame (loader ▸ settled) present
      · next absent => exact closed.idle absent rfl (by simp [Assembler.leaveFrame]) rfl
    · exact SlotInvariant.blind.keeps (.raise _ _) (h.abandoned rfl (by simp [Assembler.leaveFrame]) rfl)

end Sys2Proof

/-! ### Every step keeps the slot laws (R5, R16, R20, R154) -/

namespace Sys2Proof

open Sys2Proof.Machine

variable {s : State} {c : Settings}

/-! #### Frame starts, ring reception, the Report Unit -/

theorem SlotInvariant.keptByReception : KeptByReception SlotInvariant SlotInvariant where
  weaken _ h := h
  counted _ _ _ h := h
  setRingIn _ _ h := h
  occupancy _ _ h := h
  queued _ _ h := SlotInvariant.blind.keeps (s := State.setRingOut _ _) (.chooseOut _) h
  ownReturned s _ q _ h := SlotInvariant.blind.keeps (.ownReturned s q) h
  refuseContent _ _ _ h := h
  takeStanding s c a q x _ _ h := SlotInvariant.blind.keeps (.takeStanding s c a q x) h
  takeLeave s _ a reason _ h := SlotInvariant.blind.keeps (.takeLeave s a reason) h
  takeBeat s c y b a _ h := h.of_shown (.takeBeat s c y b a) (shown_takeBeat y b a)
  frameStartAt := SlotInvariant.frameStartAt

/-! #### CLEAR, WITHDRAW, REJOIN -/

theorem SlotInvariant.takeClear (a : BitVec 16) (h : SlotInvariant s) : SlotInvariant (s.takeClear a) := by
  rw [takeClear_eq]
  refine h.of_same rfl rfl ?_ ?_ ?_ ?_ ?_ rfl rfl
  all_goals
    dsimp only
    split <;> rfl

theorem SlotInvariant.takeWithdraw (h : SlotInvariant s) : SlotInvariant s.takeWithdraw := by
  have slots : s.slots = s.takeWithdraw.slots := (Frame.takeWithdraw s).2 .slots (by decide)
  have ingest : s.ingest = s.takeWithdraw.ingest := (Frame.takeWithdraw s).2 .ingest (by decide)
  have transfer : s.transfer = s.takeWithdraw.transfer := (Frame.takeWithdraw s).2 .transfer (by decide)
  exact h.of_same (by rw [slots]) (by rw [slots]) shown_takeWithdraw (by rw [ingest]) (by rw [ingest]) (by rw [ingest])
    (by rw [ingest]) transfer.symm settled_takeWithdraw

theorem SlotInvariant.takeRejoin (h : SlotInvariant s) : SlotInvariant s.takeRejoin := by
  unfold State.takeRejoin
  split
  · exact h
  all_goals exact h

/-! #### The operations of a step -/

theorem SlotInvariant.keptByOps : KeptByOps SlotInvariant SlotInvariant where
  weaken _ h := h
  setPending _ _ h := h
  setHeld _ _ h := h
  setNow _ _ h := h
  setLink _ _ h := h
  setReport _ _ h := h
  setLoader _ _ _ settled h := h.of_same rfl rfl rfl rfl rfl rfl rfl rfl settled
  linkError _ h := h
  pollOverrun _ h := h
  noticesTaken _ h := h
  ringCollect _ _ h := h
  ringLoss _ h := h
  ringSignal s h := SlotInvariant.keptByReception.ringSignal s h
  ringTruncate s h := SlotInvariant.keptByReception.ringTruncate s h
  ringMarker s h := SlotInvariant.keptByReception.ringMarker s h
  ringEighthByte s rest h := SlotInvariant.keptByReception.ringEighthByte s rest h
  ringLastByte s rest order h := SlotInvariant.keptByReception.ringLastByte s rest order h
  sendDone s h := SlotInvariant.blind.keeps (.sendDone s) h
  nextFrameStart _ order h := nextFrameStart_keeps SlotInvariant.frameStartAt order h
  nextLine _ h := h.nextLine
  transferDone _ _ _ transfer settled _ h := h.transferDone transfer settled
  assemblerLoss _ h := h.assemblerLoss
  takeFrameBegin _ _ _ _ h := h.takeFrameBegin
  takeLine _ _ _ _ _ _ h := h.takeLine
  takeFrameEnd _ _ _ active h := h.takeFrameEnd (settled_of_active active)
  takeClear _ a h := h.takeClear a
  takeLinkReset _ h := h.takeLinkReset
  takeWithdraw _ _ _ h := h.takeWithdraw
  takeRejoin _ _ _ h := h.takeRejoin

/-! #### The image and a device reset -/

/-- A table of FREE slots with nothing beside it. -/
theorem SlotFacts.free (n : Nat) : SlotFacts (List.replicate n .freed) [] none none [] [] none := by
  have freed {i : Nat} {r : Slot} (hi : (List.replicate n Slot.freed)[i]? = some r) : r = .freed :=
    List.eq_of_mem_replicate (List.mem_of_getElem? hi)
  have still {i : Nat} {r : Slot} (hi : (List.replicate n Slot.freed)[i]? = some r) : ¬ receivesFrame r := by
    rw [freed hi]
    simp [receivesFrame, Slot.freed]
  refine ⟨?_, ?_, .nil, ?_, ?_, ?_, nofun, .nil, nofun, ?_, ?_, ?_, ?_, nofun, nofun, .nil, nofun, ?_⟩
  · exact fun i r hi => by simp [freed hi, Slot.freed]
  · exact fun i j r q _ hi _ k => by simp [freed hi, holdsFrame, Slot.freed] at k
  · intro f
    refine ⟨nofun, fun ⟨i, r, hi, k, _⟩ => ?_⟩
    simp [freed hi, Slot.freed] at k
  · exact fun i r hi k => by simp [freed hi, Slot.freed] at k
  · exact fun i r hi => by simp [freed hi, Slot.freed]
  · exact fun i j r q _ hj _ k => (still hj k).elim
  · exact fun i j r q _ hj _ k => (still hj (.inl k)).elim
  · exact fun i r hi k => (still hi k).elim
  · exact fun i r hi k => (still hi (.inr k)).elim
  · exact fun i r hi k => (still hi k).elim

theorem SlotInvariant.imageRead {image : List Byte} (reading : s.loader.station = .configuring) (quiet : QuietLaw s)
    (h : SlotInvariant s) : SlotInvariant (s.imageRead image) := by
  obtain ⟨-, -, -, -, presentation, slots, ingest, transfer, -⟩ := quiet (active_of_configuring reading)
  unfold State.imageRead
  split
  · next c ok =>
    refine SlotInvariant.beginLine (s := State.setLink _ _) ⟨?_, ?_, ?_⟩
    · unfold SlotFacts.At
      simp [presentation, slots, ingest, transfer, SlotManager.reset, Presentation.reset, Assembler.reset,
        SlotFacts.free]
    · simp [ingest, Assembler.reset]
    · obtain ⟨-, ⟨low, high⟩, -, -, ⟨lines, -⟩, -⟩ := inRange_of_checkImage ok
      simp only [State.setLink_slots, State.setTiming_slots, State.raise_slots, State.setRole_slots,
        State.setRoster_slots, State.setSlots_slots, State.setLoader_slots, slots, SlotManager.reset]
      refine ⟨by simp, fun c' k => ?_⟩
      obtain rfl : c = c' := Option.some.inj k
      exact ⟨Nat.zero_le _, by omega, low, high, List.length_replicate⟩
  · obtain ⟨facts, frame, three, -⟩ := h
    exact ⟨facts, frame, three, nofun⟩

theorem SlotInvariant.deviceReset (s : State) : SlotInvariant s.deviceReset := by
  obtain ⟨mem, draws, e⟩ := deviceReset_eq s
  rw [e]
  exact ⟨SlotFacts.free 0, ⟨nofun, nofun⟩, Nat.zero_le 3, nofun⟩

/-- The laws before RUNNING carry the slot laws through the image read. -/
theorem SlotInvariant.step (quiet : QuietLaw s) (h : SlotInvariant s) : NextMeets SlotInvariant (Machine.step s) := by
  by_cases reading : ∃ e bytes rest, s.pending = .configReadComplete e bytes :: rest
  · obtain ⟨e, bytes, rest, front⟩ := reading
    intro t run
    rw [Machine.step, front] at run
    change onEvent e (State.imageBytesTaken bytes) (s.setPending rest) = .next t at run
    unfold onEvent at run
    split at run
    · cases run
      exact h
    · cases run
      have elapsed : SlotInvariant ((s.setPending rest).elapse e) := SlotInvariant.keptByOps.elapse e h
      unfold State.imageBytesTaken
      split
      · next ends => exact elapsed.imageRead ends.1 (QuietLaw.keptByOps.elapse e quiet)
      · exact elapsed
  · exact SlotInvariant.keptByOps.step (fun e bytes rest front => (reading ⟨e, bytes, rest, front⟩).elim)
      (fun _ _ _ _ => SlotInvariant.deviceReset _) h

/-- Settles O57: the laws hold by INDEX for every operation on the slot table and the line writes. -/
theorem everyStepKeepsSlotLaw : Obligations.EveryStepKeepsSlotLaw := by
  rintro s ⟨slots, writes, quiet⟩ t run
  have kept : SlotInvariant t := SlotInvariant.step quiet (slotInvariant_iff.2 ⟨slots, writes⟩) t run
  obtain ⟨slots', writes'⟩ := slotInvariant_iff.1 kept
  exact ⟨slots', writes', everyStepKeepsQuietLaw s quiet t run⟩

end Sys2Proof

/-! ### The queue, the reset values, the laws at reset -/

namespace Sys2Proof

open Sys2Proof.Machine

/-- Settles O1: a step looks at nothing of the queue but its front. -/
theorem stepRunsTheFrontCommand : Obligations.StepRunsTheFrontCommand := fun _ _ _ => rfl

/-- Settles O3: each block's reset value is evaluated. -/
theorem resetValues : Obligations.ResetValues :=
  ⟨rfl, rfl, rfl, rfl, rfl, rfl, rfl, rfl, rfl, rfl, rfl, rfl, rfl, rfl, rfl, rfl, rfl, rfl, rfl, rfl, rfl⟩

/-- A device reset leaves the reset state but for what it does not clear, and the laws read none of that. -/
theorem quietLaw_reset : QuietLaw State.reset :=
  fun _ => ⟨rfl, rfl, rfl, rfl, rfl, rfl, rfl, rfl, rfl, rfl, rfl, rfl, rfl, rfl, rfl, BitVec.zero_and⟩

theorem rosterLaw_reset : RosterLaw State.reset :=
  rosterLaw_iff.2 ⟨nofun, ⟨nofun, nofun⟩, nofun, fun _ => rfl⟩

theorem slotInvariant_reset : SlotInvariant State.reset :=
  ⟨SlotFacts.free 0, ⟨nofun, nofun⟩, Nat.zero_le 3, nofun⟩

/-- Settles O51: right after reset nothing is settled, listed, queued or held. -/
theorem lawsHoldAtReset : Obligations.LawsHoldAtReset := by
  obtain ⟨slots, writes⟩ := slotInvariant_iff.1 slotInvariant_reset
  exact ⟨Memory.wf_reset, .of_unsettled rfl, rosterLaw_reset, ⟨rfl, Nat.zero_le 160, nofun⟩, quietLaw_reset, slots,
    writes, ⟨fun _ => ⟨rfl, rfl, rfl, rfl⟩, fun _ => rfl⟩, Nat.zero_le 8, Nat.zero_le 4⟩

end Sys2Proof

/-! ### Source pixels (13.8, R151) -/

namespace Sys2Proof

open Sys2Proof.Machine

/-! #### Components -/

theorem toNat_widen5 (v : BitVec 5) : (widen5 v).toNat = 8 * v.toNat + v.toNat / 4 := by
  have := v.isLt
  rw [widen5, BitVec.toNat_ofNat]
  omega

theorem toNat_widen6 (v : BitVec 6) : (widen6 v).toNat = 4 * v.toNat + v.toNat / 16 := by
  have := v.isLt
  rw [widen6, BitVec.toNat_ofNat]
  omega

theorem toNat_widen4 (v : BitVec 4) : (widen4 v).toNat = 17 * v.toNat := by
  have := v.isLt
  rw [widen4, BitVec.toNat_ofNat]
  omega

theorem toNat_narrow10 (v : BitVec 10) : (narrow10 v).toNat = v.toNat / 4 := by
  have := v.isLt
  rw [narrow10, BitVec.toNat_ofNat]
  omega

/-! #### Groups -/

theorem length_pixels24 (bs : List Byte) : (pixels24 bs).length = bs.length / 3 := by
  induction bs using pixels24.induct with
  | case1 r g b rest ih =>
    simp only [pixels24, List.length_cons, ih]
    omega
  | case2 bs short =>
    rcases bs with _ | ⟨_, _ | ⟨_, _ | ⟨_, _⟩⟩⟩
    · rfl
    · simp [pixels24]
    · simp [pixels24]
    · exact (short _ _ _ _ rfl).elim

theorem length_pixels16 (bs : List Byte) : (pixels16 bs).length = bs.length / 2 := by
  induction bs using pixels16.induct with
  | case1 hi lo rest ih =>
    simp only [pixels16, List.length_cons, ih]
    omega
  | case2 bs short =>
    rcases bs with _ | ⟨_, _ | ⟨_, _⟩⟩
    · rfl
    · simp [pixels16]
    · exact (short _ _ _ rfl).elim

theorem length_pixels12 (bs : List Byte) : (pixels12 bs).length = bs.length / 3 * 2 := by
  induction bs using pixels12.induct with
  | case1 x y z rest ih =>
    simp only [pixels12, List.length_cons, ih]
    omega
  | case2 bs short =>
    rcases bs with _ | ⟨_, _ | ⟨_, _ | ⟨_, _⟩⟩⟩
    · rfl
    · simp [pixels12]
    · simp [pixels12]
    · exact (short _ _ _ _ rfl).elim

theorem length_pixels30 (bs : List Byte) : (pixels30 bs).length = bs.length / 15 * 4 := by
  induction bs using pixels30.induct with
  | case1 b0 b1 b2 b3 b4 b5 b6 b7 b8 b9 b10 b11 b12 b13 b14 rest ih =>
    simp only [pixels30, List.length_cons, ih]
    omega
  | case2 bs short =>
    have few : bs.length < 15 := by
      by_contra many
      obtain ⟨front, rest, rfl, size⟩ : ∃ front rest, bs = front ++ rest ∧ front.length = 15 :=
        ⟨bs.take 15, bs.drop 15, (List.take_append_drop 15 bs).symm, by simp; omega⟩
      match front, size with
      | [b0, b1, b2, b3, b4, b5, b6, b7, b8, b9, b10, b11, b12, b13, b14], _ =>
        exact short b0 b1 b2 b3 b4 b5 b6 b7 b8 b9 b10 b11 b12 b13 b14 rest rfl
    rw [pixels30.eq_2 bs short, Nat.div_eq_of_lt few]
    rfl

/-- A payload of whole groups gives each group's pixels. -/
theorem length_convertPixels (f : PixelFormat) (bs : List Byte) :
    (convertPixels f bs).length = bs.length / f.groupBytes * f.groupPixels := by
  cases f with
  | p24 => exact (length_pixels24 bs).trans (Nat.mul_one _).symm
  | p16 => exact (length_pixels16 bs).trans (Nat.mul_one _).symm
  | p12 => exact length_pixels12 bs
  | p30 => exact length_pixels30 bs

theorem pixel16_append (r b : BitVec 5) (g : BitVec 6) : pixel16 (r ++ g ++ b) = widen5 r ++ widen6 g ++ widen5 b := by
  have red : (r ++ g ++ b).extractLsb' 11 5 = r := by
    rw [BitVec.extractLsb'_append_eq_of_le (by decide)]
    exact BitVec.extractLsb'_append_eq_left
  have green : (r ++ g ++ b).extractLsb' 5 6 = g := by
    rw [BitVec.extractLsb'_append_eq_of_le (by decide)]
    exact BitVec.extractLsb'_append_eq_right
  have blue : (r ++ g ++ b).extractLsb' 0 5 = b := BitVec.extractLsb'_append_eq_right
  rw [pixel16, red, green, blue, pixelOf]

/-- The nibbles of three bytes, in order. -/
theorem extractLsb'_of_append (x y z : Byte) (i : Nat) (hi : i + 4 ≤ 8) :
    (x ++ y ++ z).extractLsb' (16 + i) 4 = x.extractLsb' i 4 ∧ (x ++ y ++ z).extractLsb' (8 + i) 4 = y.extractLsb' i 4 ∧
      (x ++ y ++ z).extractLsb' i 4 = z.extractLsb' i 4 := by
  refine ⟨?_, ?_, BitVec.extractLsb'_append_eq_of_add_le hi⟩
  · rw [BitVec.extractLsb'_append_eq_of_le (by omega), BitVec.extractLsb'_append_eq_of_le (by omega)]
    congr 1
    omega
  · rw [BitVec.extractLsb'_append_eq_of_le (by omega), BitVec.extractLsb'_append_eq_of_add_le (by omega)]
    congr 1
    omega

/-- The nibbles of three bytes are those of the 24 bits that they make up. -/
theorem nibbles_of_append {r g b r' g' b' : BitVec 4} {x y z : Byte} (h : x ++ y ++ z = r ++ g ++ b ++ r' ++ g' ++ b') :
    x.extractLsb' 4 4 = r ∧ x.extractLsb' 0 4 = g ∧ y.extractLsb' 4 4 = b ∧ y.extractLsb' 0 4 = r' ∧
      z.extractLsb' 4 4 = g' ∧ z.extractLsb' 0 4 = b' := by
  obtain ⟨x4, y4, z4⟩ := extractLsb'_of_append x y z 4 (by decide)
  obtain ⟨x0, y0, z0⟩ := extractLsb'_of_append x y z 0 (by decide)
  rw [← x4, ← x0, ← y4, ← y0, ← z4, ← z0, h]
  have past {n : Nat} (v : BitVec n) (u : BitVec 4) (i : Nat) : (v ++ u).extractLsb' (4 + i) 4 = v.extractLsb' i 4 := by
    rw [BitVec.extractLsb'_append_eq_of_le (by omega), Nat.add_sub_cancel_left]
  have last {n : Nat} (v : BitVec n) (u : BitVec 4) : (v ++ u).extractLsb' 0 4 = u :=
    BitVec.extractLsb'_append_eq_right
  refine ⟨?_, ?_, ?_, ?_, ?_, last _ _⟩
  · exact (past _ _ 16).trans ((past _ _ 12).trans ((past _ _ 8).trans ((past _ _ 4).trans
      ((past _ _ 0).trans BitVec.extractLsb'_eq_self))))
  · exact (past _ _ 12).trans ((past _ _ 8).trans ((past _ _ 4).trans ((past _ _ 0).trans (last _ _))))
  · exact (past _ _ 8).trans ((past _ _ 4).trans ((past _ _ 0).trans (last _ _)))
  · exact (past _ _ 4).trans ((past _ _ 0).trans (last _ _))
  · exact (past _ _ 0).trans (last _ _)

/-- The 15 bytes of a P30 group make up its 120 bits. -/
theorem pixels30_bytes (v : BitVec 120) (rest : List Byte) :
    pixels30 ((List.range 15).map (fun i => v.extractLsb' (112 - 8 * i) 8) ++ rest) =
      (List.range 4).map (pixel30 v) ++ pixels30 rest := by
  have whole : v.extractLsb' 112 8 ++ v.extractLsb' 104 8 ++ v.extractLsb' 96 8 ++ v.extractLsb' 88 8 ++
      v.extractLsb' 80 8 ++ v.extractLsb' 72 8 ++ v.extractLsb' 64 8 ++ v.extractLsb' 56 8 ++ v.extractLsb' 48 8 ++
      v.extractLsb' 40 8 ++ v.extractLsb' 32 8 ++ v.extractLsb' 24 8 ++ v.extractLsb' 16 8 ++ v.extractLsb' 8 8 ++
      v.extractLsb' 0 8 = v := by
    have join (b n : Nat) : v.extractLsb' (b + 8) n ++ v.extractLsb' b 8 = v.extractLsb' b (n + 8) :=
      BitVec.extractLsb'_append_extractLsb'_eq_extractLsb' rfl
    rw [join 104, join 96, join 88, join 80, join 72, join 64, join 56, join 48, join 40, join 32, join 24, join 16,
      join 8, join 0]
    exact BitVec.extractLsb'_eq_self
  have bytes : (List.range 15).map (fun i => v.extractLsb' (112 - 8 * i) 8) =
      [v.extractLsb' 112 8, v.extractLsb' 104 8, v.extractLsb' 96 8, v.extractLsb' 88 8, v.extractLsb' 80 8,
        v.extractLsb' 72 8, v.extractLsb' 64 8, v.extractLsb' 56 8, v.extractLsb' 48 8, v.extractLsb' 40 8,
        v.extractLsb' 32 8, v.extractLsb' 24 8, v.extractLsb' 16 8, v.extractLsb' 8 8, v.extractLsb' 0 8] := rfl
  rw [bytes]
  simp only [List.cons_append, List.nil_append, pixels30, whole]
  rfl

/-- Settles O50: format by format, the bits of a group are those of its components. -/
theorem pixelComponents : Obligations.PixelComponents := by
  refine ⟨toNat_widen5, toNat_widen6, toNat_widen4, toNat_narrow10, fun f bs _ => length_convertPixels f bs,
    fun _ _ _ _ => rfl, ?_, ?_, fun v rest => pixels30_bytes v rest⟩
  · intro r b g x y rest same
    rw [← pixel16_append r b g, ← same]
    rfl
  · intro r g b r' g' b' x y z rest same
    obtain ⟨e1, e2, e3, e4, e5, e6⟩ := nibbles_of_append same
    simp only [convertPixels, pixels12, e1, e2, e3, e4, e5, e6]
    rfl

end Sys2Proof

/-! ### What passes between two commands (R74, R77, R94, 8.2) -/

namespace Sys2Proof

open Sys2Proof.Machine

variable {s : State} {e : Elapsed}

/-! #### Station time -/

theorem now_elapse : (s.elapse e).now = (s.passTicks e.ticks).now := rfl

theorem now_passTicks_of_idle {d : Tick} (h : s.timing.timer = none) : (s.passTicks d).now = s.now + d := by
  simp [State.passTicks, h]

theorem now_passTicks_of_timer {d : Tick} {timer : FrameTimer} (h : s.timing.timer = some timer)
    (ahead : (timer.next - s.now).toNat < 2147483648) :
    (s.passTicks d).now = if d.toNat ≤ (timer.next - s.now).toNat then s.now + d else timer.next := by
  simp only [State.passTicks, h, ticksFrom, ahead, if_true, State.setNow_now]
  rfl

theorem now_passTicks_of_passed {d : Tick} {timer : FrameTimer} (h : s.timing.timer = some timer)
    (behind : 2147483648 ≤ (timer.next - s.now).toNat) : (s.passTicks d).now = s.now := by
  simp only [State.passTicks, h, ticksFrom, Nat.not_lt.2 behind, if_false]

/-! #### What the receivers collect -/

/-- What has been taken of a piece stays within its limit. -/
theorem length_append_take_le {taken bytes : List Byte} {limit : Nat} (h : taken.length ≤ limit) :
    (taken ++ bytes.take (limit - taken.length)).length ≤ limit := by
  simp only [List.length_append, List.length_take]
  omega

theorem ringCollect_idle {r : RingReceiver} (bs : List Byte) (h : r.packet = none) : r.collect bs = r := by
  simp [RingReceiver.collect, h]

theorem ringCollect_packet {r : RingReceiver} {p : RingRxPacket} (bs : List Byte) (h : r.packet = some p) :
    (r.collect bs).packet = some
      { p with
        taken := p.taken ++ bs.take ((match p.header with
          | none => 7
          | some h => h.length.toNat + 1) - p.taken.length) } := by
  cases header : p.header <;> simp [RingReceiver.collect, h, header, roomFor]

theorem ringCollect_rest (r : RingReceiver) (bs : List Byte) :
    r.collect bs = { r with packet := (r.collect bs).packet } := by
  unfold RingReceiver.collect
  repeat' split
  all_goals rfl

theorem linkCollect_idle {r : LinkReceiver} (bs : List Byte) (h : r.packet = none) : r.collect bs = r := by
  simp [LinkReceiver.collect, h]

theorem linkCollect_header {r : LinkReceiver} {p : LinkRxPacket} (bs : List Byte) (h : r.packet = some p)
    (collecting : p.header = none) :
    (r.collect bs).packet = some { p with taken := p.taken ++ bs.take (7 - p.taken.length) } := by
  simp [LinkReceiver.collect, h, collecting, roomFor]

theorem linkCollect_body {r : LinkReceiver} {p : LinkRxPacket} {x : LinkHeader} (bs : List Byte)
    (h : r.packet = some p) (header : p.header = some x) :
    (r.collect bs).packet = some
      { p with
        taken :=
          if r.state = .payload then p.taken ++ bs.take (min bs.length (p.remaining - 1)) else p.taken,
        remaining := p.remaining - min bs.length (p.remaining - 1) } := by
  by_cases payload : r.state = .payload <;>
    simp [LinkReceiver.collect, h, header, payload, Nat.min_comm]

theorem linkCollect_rest (r : LinkReceiver) (bs : List Byte) :
    r.collect bs = { r with packet := (r.collect bs).packet } := by
  unfold LinkReceiver.collect
  repeat' split
  all_goals rfl

/-- Only while CONFIGURING are image bytes taken. -/
theorem loaderCollect_eq (l : Loader) (bs : List Byte) :
    l.collect bs =
      { l with
        image := if l.station = .configuring then l.image ++ bs.take (23 - l.image.length) else l.image } := by
  unfold Loader.collect roomFor
  split
  · next reading => rw [if_pos reading]
  · next other => rw [if_neg (by simp [other])]
  · next other => rw [if_neg (by simp [other])]
  · next other => rw [if_neg (by simp [other])]

/-- Settles O2: block by block, by what each receiver collects. -/
theorem passingTimeChangesOnly : Obligations.PassingTimeChangesOnly := by
  intro e s
  obtain ⟨ringIn, link, loader⟩ := elapse_blocks (s := s) (e := e)
  dsimp only
  rw [ringIn, link, loader, now_elapse]
  refine ⟨Frame.elapse s e, now_passTicks_of_idle,
    fun timer running => ⟨now_passTicks_of_timer running, now_passTicks_of_passed running⟩, ringCollect_rest _ _,
    fun idle => ?_, fun p receiving => ⟨ringCollect_packet _ receiving, length_append_take_le⟩, linkCollect_rest _ _,
    fun idle => ?_, fun p receiving => ⟨fun collecting => ?_, fun x header => ?_⟩, loaderCollect_eq _ _, ?_⟩
  · rw [ringCollect_idle _ idle, idle]
  · rw [linkCollect_idle _ idle, idle]
  · exact ⟨linkCollect_header _ receiving collecting, length_append_take_le⟩
  · exact ⟨linkCollect_body _ receiving header, fun some_left => by omega⟩
  · intro reading short
    rw [loaderCollect_eq, if_pos reading]
    exact Nat.lt_succ_of_le (length_append_take_le (Nat.le_of_lt_succ short))

end Sys2Proof

/-! ### Device reset (R163, R188) -/

namespace Sys2Proof

open Sys2Proof.Machine

variable {s : State} {e : Elapsed}

theorem length_cutBytes (draw first n : Nat) : (cutBytes draw first n).length = n := by simp [cutBytes]

/-- A device reset keeps every byte but those of the line whose write it cuts. -/
theorem deviceReset_memory (s : State) : ∃ mem draws,
    s.deviceReset = .afterReset true s.pending s.link.signal mem draws ∧
      (s.cutWrite = none → ∀ a, Memory.read mem a = Memory.read s.mem a) ∧
      ∀ first n, s.cutWrite = some (first, n) →
        ∀ a, a < first ∨ first + n ≤ a → Memory.read mem a = Memory.read s.mem a := by
  unfold State.deviceReset
  cases cut : s.cutWrite with
  | none => exact ⟨_, _, rfl, fun _ _ => rfl, nofun⟩
  | some line =>
    refine ⟨_, _, rfl, nofun, fun first n same a outside => ?_⟩
    cases same
    exact Memory.read_write_of_outside (by rwa [length_cutBytes])

theorem exec_deviceReset_of_resets {cause : ResetCause} (h : ResetCause.resets cause = true) :
    exec (.deviceReset e cause) s = .next s.deviceReset := if_pos h

/-- A short pulse on RESET_N is an event of its own only for the time that has passed. -/
theorem exec_deviceReset_of_filtered {cause : ResetCause} (h : ResetCause.resets cause = false) :
    exec (.deviceReset e cause) s = onEvent e id s := if_neg (by simp [h])

theorem resets_of_short {n : Nat} (h : n < 100) : ResetCause.resets (.resetPin n) = false :=
  decide_eq_false (Nat.not_le.2 h)

/-- While a reset lasts only a device reset and its end have an effect, and the signal of the forward lane is followed. -/
theorem exec_of_held (i : Instr) (held : s.held = true) :
    match i with
    | .resetEnd _ => True
    | .deviceReset _ .powerOn => True
    | .deviceReset _ (.resetPin n) => n < 100 → exec i s = .next s
    | .linkLossOfSignal _ => exec i s = .next { s with link := { s.link with signal := false } }
    | .linkSignalPresent _ => exec i s = .next { s with link := { s.link with signal := true } }
    | _ => exec i s = .next s := by
  cases i with
  | resetEnd e => trivial
  | deviceReset e cause =>
    cases cause with
    | powerOn => trivial
    | resetPin n =>
      exact fun short => (exec_deviceReset_of_filtered (resets_of_short short)).trans (onEvent_of_held _ held)
  | linkLossOfSignal e => exact if_pos held
  | linkSignalPresent e => exact if_pos held
  | transferComplete e => exact if_pos held
  | _ => exact onEvent_of_held _ held

/-- Settles O4: by the cause, and for the other commands by the form of an event. -/
theorem deviceResetAndItsEnd : Obligations.DeviceResetAndItsEnd := by
  refine ⟨⟨fun e cause s long => ?_, fun e n s running short => ?_⟩, fun e s held => ?_, fun i s => exec_of_held i⟩
  · have resets : ResetCause.resets cause = true := by
      rcases long with rfl | ⟨n, rfl, enough⟩
      · rfl
      · exact decide_eq_true enough
    obtain ⟨mem, draws, reset, kept⟩ := deviceReset_memory s
    exact ⟨mem, draws, (exec_deviceReset_of_resets resets).trans (congrArg _ reset), kept⟩
  · exact (exec_deviceReset_of_filtered (resets_of_short short)).trans (onEvent_of_running _ running)
  · exact if_pos held

end Sys2Proof

/-! ### The end of the configuration read (R183 to R186) -/

namespace Sys2Proof

open Sys2Proof.Machine

variable {s : State} {c : Settings} {e : Elapsed} {rest : List Byte}

theorem configPort_of_reading (running : s.held = false) (reading : s.loader.station = .configuring) :
    s.configPort = ⟨true, true, [0x03, 0, 0, 0]⟩ := by
  simp [State.configPort, State.chipSelect, running, reading, Config.readCommand]

theorem configPort_of_read (read : s.loader.station ≠ .configuring) : s.configPort = ⟨false, false, []⟩ := by
  simp [State.configPort, State.chipSelect, read]

theorem held_elapse : (s.elapse e).held = s.held := ((Frame.elapse s e).2 .held (by decide)).symm

/-- The 24th byte ends the read (R184). -/
theorem exec_configReadComplete_of_whole (running : s.held = false) (reading : s.loader.station = .configuring)
    (whole : ((s.elapse e).loader.image ++ rest).length = 24) :
    exec (.configReadComplete e rest) s = .next ((s.elapse e).imageRead ((s.elapse e).loader.image ++ rest)) := by
  rw [exec_configReadComplete running, State.imageBytesTaken, if_pos ⟨elapse_station.trans reading, whole⟩]

/-! #### A valid image -/

/-- Frame line 0 asks for active line 0 where VB is 2, and the idle frame memory has nothing to grant (R165). -/
theorem beginLine_zero_of_reset (vb : 2 ≤ c.vb) (scan : s.scan = .reset) (queue : s.ingest.queue = []) :
    s.beginLine c 0 =
      { s with scan := { s.scan with even := if c.vb = 2 then ⟨some 0, false, []⟩ else s.scan.even } } := by
  unfold State.beginLine
  rw [if_pos (by omega)]
  by_cases two : c.vb = 2
  · rw [if_pos (by omega), if_pos two, State.requestFetch, grant_of_empty]
    · simp [scan, ScanOut.request, ScanOut.setBuffer, bufferOf, ScanOut.reset, State.setScan]
    · simp [scan, ScanOut.request, ScanOut.setBuffer, bufferOf, ScanOut.reset]
    · exact queue
  · rw [if_neg (by omega), if_neg (by omega), if_neg two]

/-- The station as it enters RUNNING, before the frame timer's first line (R185). -/
def entered (image : List Byte) (c : Settings) (s : State) : State :=
  { s with
    loader := ⟨.running, image, some c, none⟩, slots := { s.slots with table := List.replicate c.slotCount .freed },
    roster := { s.roster with ownPresent := true }, role := { s.role with role := .listening, listening := 0 },
    timing := s.timing.start c s.now, notices := s.notices ||| 0x0002#16, link := s.link.release }

theorem enterRunning_eq (image : List Byte) : s.enterRunning image c = (entered image c s).beginLine c 0 := rfl

/-- Settles O5: the entry to RUNNING, block by block, from the reset values of `QuietLaw`. -/
theorem goodImageEntersRunning : Obligations.GoodImageEntersRunning := by
  intro e rest c s running reading quiet whole ok
  have configuring : (s.elapse e).loader.station = .configuring := elapse_station.trans reading
  obtain ⟨-, timing, role, roster, -, slots, ingest, -, scan, -⟩ :=
    QuietLaw.keptByOps.elapse e quiet (active_of_configuring configuring)
  refine ⟨_, exec_configReadComplete_of_whole running reading whole, ?_⟩
  have port := configPort_of_reading (held_elapse.trans running) configuring
  generalize s.elapse e = b at *
  generalize b.loader.image ++ rest = image at *
  have enters : b.imageRead image = (entered image c b).beginLine c 0 := by
    rw [State.imageRead, ok]
    rfl
  rw [enters, beginLine_zero_of_reset (s := entered image c b) (inRange_of_checkImage ok).vb.1 scan (by simp [entered, ingest, Assembler.reset])]
  refine ⟨rfl, ?_, ?_, ?_, ?_, rfl, rfl, ⟨rfl, fun p hp => ?_⟩, rfl, ?_, ?_, port, configPort_of_read nofun⟩
  · simp [entered, slots]
  · simp [entered, roster]
  · simp [entered, role, RoleUnit.reset]
  · simp [entered, timing, TimingUnit.start, TimingUnit.reset, Settings.period]
  · cases p <;> first | exact absurd (by decide) hp | simp [Part.same, entered]
  · simp [entered, scan, ScanOut.reset]
  · simp [entered, scan, ScanOut.reset]

/-! #### An image that is not valid -/

/-- The checks of R184, the first that fails giving the cause, by the numbers that the image holds. -/
theorem checkImage_by_numbers (bs : List Byte) :
    let byte (i : Nat) : Nat := (byteAt bs i).toNat
    let word (i : Nat) : Nat := 256 * byte i + byte (i + 1)
    let unused := byte 1 / 32 + byte 2 / 32 + byte 3 / 64 + byte 20 + byte 21
    let period := word 4 * (byte 6 + word 7)
    checkImage bs =
      if (crc16 (bs.take 22)).toNat ≠ word 22 then .error .imageCrc
      else if byte 0 ≠ 0x31 then .error .formatCode
      else match (imageFields bs).find? rowBad with
        | some x => .error (.fieldRange x.1)
        | none =>
          if unused ≠ 0 then .error .unusedNonzero
          else if period < 500000 ∨ 4000000 < period then .error .periodRange else .ok (imageSettings bs) := by
  intro byte word unused period
  have crc : crc16 (bs.take 22) ≠ word16 (byteAt bs 22) (byteAt bs 23) ↔ (crc16 (bs.take 22)).toNat ≠ word 22 := by
    rw [ne_eq, ne_eq, ← BitVec.toNat_inj, toNat_word16]
  have code : byteAt bs 0 ≠ Config.imageFormat ↔ byte 0 ≠ 0x31 := by
    rw [ne_eq, ne_eq, ← BitVec.toNat_inj]
    exact Iff.rfl
  have zero : (!unusedZero bs) = true ↔ unused ≠ 0 := by
    have bits (x : Byte) (i n : Nat) (h : 256 ≤ 2 ^ n * 2 ^ i) : x.extractLsb' i n = 0 ↔ x.toNat / 2 ^ i = 0 := by
      rw [← BitVec.toNat_inj, BitVec.extractLsb'_toNat, Nat.shiftRight_eq_div_pow,
        Nat.mod_eq_of_lt (Nat.div_lt_of_lt_mul (by have := x.isLt; rw [Nat.mul_comm]; omega))]
      exact Iff.rfl
    have whole (x : Byte) : x = 0 ↔ x.toNat = 0 := by
      rw [← BitVec.toNat_inj]
      exact Iff.rfl
    simp only [unusedZero, Bool.not_eq_true', Bool.and_eq_false_iff, beq_eq_false_iff_ne, ne_eq,
      bits (byteAt bs 1) 5 3 (by decide), bits (byteAt bs 2) 5 3 (by decide), bits (byteAt bs 3) 6 2 (by decide), whole, unused, byte]
    omega
  have outside : (!within 500000 4000000 (imageSettings bs).period) = true ↔ period < 500000 ∨ 4000000 < period := by
    rw [not_within]
    simp only [Settings.period, imageSettings, toNat_word16]
    exact Iff.rfl
  unfold checkImage
  refine if_congr crc rfl (if_congr code rfl ?_)
  rw [outOfRange_eq]
  cases (imageFields bs).find? rowBad with
  | some x => rfl
  | none => exact if_congr zero rfl (if_congr outside rfl rfl)

/-- Settles O6: the entry to CONFIG_FAULT, and the checks in their order. -/
theorem badImageEntersConfigFault : Obligations.BadImageEntersConfigFault := by
  refine ⟨fun e rest cause s running reading whole bad => ⟨?_, ?_, configPort_of_read nofun⟩, fun image => ?_⟩
  · rw [exec_configReadComplete_of_whole running reading whole, State.imageRead, bad]
    rfl
  · exact configPort_of_reading (held_elapse.trans running) (elapse_station.trans reading)
  · have checks := checkImage_by_numbers image
    refine ⟨fun crc => checks.trans (if_pos crc),
      fun crc code => checks.trans ((if_neg (not_not.2 crc)).trans (if_pos code)), fun f range crc code field => ?_,
      fun crc code fields unused => ?_, fun crc code fields unused period => ?_,
      fun crc code fields unused low high => ⟨imageSettings image, ?_⟩⟩
    all_goals refine checks.trans ((if_neg (not_not.2 crc)).trans ((if_neg (not_not.2 code)).trans ?_))
    · have first : (imageFields image).find? rowBad = some (f, range) := field
      rw [first]
    all_goals
      have none_bad : (imageFields image).find? rowBad = none := fields
      rw [none_bad]
    · exact if_pos unused
    · exact (if_neg (not_not.2 unused)).trans (if_pos period)
    · exact (if_neg (not_not.2 unused)).trans (if_neg (not_or.2 ⟨Nat.not_lt.2 low, Nat.not_lt.2 high⟩))

end Sys2Proof

/-! ### The encoding of the configuration image (13.7, R183, R184) -/

namespace Sys2Proof

open Sys2Proof.Machine

variable {c : Settings} {image : List Byte}

/-! #### The bytes of an image -/

theorem length_imageBytes (c : Settings) : c.imageBytes.length = 22 := by simp [Settings.imageBytes, bytes16, bytes24]

theorem length_image (c : Settings) : c.image.length = 24 := by simp [Settings.image, length_imageBytes, bytes16]

theorem drop_image (c : Settings) : c.image.drop 22 = bytes16 (crc16 c.imageBytes) := by
  rw [Settings.image, List.drop_append_of_le_length (length_imageBytes c).ge, List.drop_of_length_le
    (length_imageBytes c).le, List.nil_append]

/-- The two bytes of a 16-bit value give it back. -/
theorem word16_bytes (v : BitVec 16) : word16 (v.extractLsb' 8 8) (v.extractLsb' 0 8) = v :=
  BitVec.extractLsb'_append_extractLsb' (w := 8) (len := 8)

theorem bytes16_word16 (x y : Byte) : bytes16 (word16 x y) = [x, y] := by
  rw [bytes16, word16, BitVec.extractLsb'_append_eq_left, BitVec.extractLsb'_append_eq_right]

theorem bytes24_append (x y z : Byte) : bytes24 (x ++ y ++ z) = [x, y, z] := by
  have first : (x ++ y ++ z).extractLsb' 16 8 = x :=
    (BitVec.extractLsb'_append_eq_of_le (by decide)).trans BitVec.extractLsb'_append_eq_left
  have second : (x ++ y ++ z).extractLsb' 8 8 = y :=
    (BitVec.extractLsb'_append_eq_of_le (by decide)).trans BitVec.extractLsb'_append_eq_right
  have third : (x ++ y ++ z).extractLsb' 0 8 = z := BitVec.extractLsb'_append_eq_right
  exact congr (congrArg List.cons first) (congr (congrArg List.cons second) (congrArg (List.cons · []) third))

theorem append_bytes24 (v : BitVec 24) : v.extractLsb' 16 8 ++ v.extractLsb' 8 8 ++ v.extractLsb' 0 8 = v := by
  rw [BitVec.append_assoc]
  have low : v.extractLsb' 8 8 ++ v.extractLsb' 0 8 = v.extractLsb' 0 16 :=
    BitVec.extractLsb'_append_extractLsb'_eq_extractLsb' rfl
  rw [low]
  exact BitVec.extractLsb'_append_extractLsb' (w := 8) (len := 16)

/-- Byte 2: group, origin-capable and advance policy. -/
def policyByte (policy capable : Bool) (group : BitVec 3) : Byte :=
  (0#3 : BitVec 3) ++ BitVec.ofBool policy ++ BitVec.ofBool capable ++ group

theorem policyByte_fields : ∀ (policy capable : Bool) (group : BitVec 3),
    (policyByte policy capable group).extractLsb' 0 3 = group ∧ (policyByte policy capable group).getLsbD 3 = capable ∧
      (policyByte policy capable group).getLsbD 4 = policy ∧ (policyByte policy capable group).extractLsb' 5 3 = 0 ∧
      (policyByte policy capable group).toNat = group.toNat + 8 * capable.toNat + 16 * policy.toNat := by decide

theorem policyByte_of_fields : ∀ x : Byte, x.extractLsb' 5 3 = 0 →
    policyByte (x.getLsbD 4) (x.getLsbD 3) (x.extractLsb' 0 3) = x := by decide +kernel

/-- Byte 3: pixel format and slot count. -/
def formatByte (slots format : BitVec 3) : Byte := (0#2 : BitVec 2) ++ slots ++ format

theorem formatByte_fields : ∀ slots format : BitVec 3,
    (formatByte slots format).extractLsb' 0 3 = format ∧ (formatByte slots format).extractLsb' 3 3 = slots ∧
      (formatByte slots format).extractLsb' 6 2 = 0 ∧
      (formatByte slots format).toNat = format.toNat + 8 * slots.toNat := by decide

theorem formatByte_of_fields : ∀ x : Byte, x.extractLsb' 6 2 = 0 →
    formatByte (x.extractLsb' 3 3) (x.extractLsb' 0 3) = x := by decide +kernel

/-- Byte 1: the address. -/
theorem addressByte_fields : ∀ a : Address,
    ((0#3 : BitVec 3) ++ a : Byte).extractLsb' 0 5 = a ∧ ((0#3 : BitVec 3) ++ a : Byte).extractLsb' 5 3 = 0 ∧
      ((0#3 : BitVec 3) ++ a : Byte) = BitVec.ofNat 8 a.toNat := by decide

theorem addressByte_of_fields : ∀ x : Byte, x.extractLsb' 5 3 = 0 → (0#3 : BitVec 3) ++ x.extractLsb' 0 5 = x := by
  decide +kernel

theorem ofCode_code (f : PixelFormat) : PixelFormat.ofCode f.code = some f := by cases f <;> rfl

theorem code_of_ofCode : ∀ x : BitVec 3, (PixelFormat.ofCode x).isSome = true →
    ((PixelFormat.ofCode x).getD .p24).code = x := by decide

/-! #### What an image encodes -/

theorem inRange_lt (h : InRange c) : c.lineTicks < 65536 ∧ c.vb < 256 ∧ c.h < 65536 ∧ c.w < 65536 ∧ c.lockWindow < 65536 ∧
    c.slewLimit < 65536 ∧ c.segmentDelay < 65536 ∧ c.slotCount < 8 := by
  obtain ⟨-, slots, ticks, vb, h, w, lock, slew, segment⟩ := h
  omega

/-- The two bytes of a number. -/
def wordBytes (n : Nat) : List Byte := bytes16 (BitVec.ofNat 16 n)

/-- The 24 bytes of an image, those of bit fields and numbers by name. -/
theorem image_eq (c : Settings) : c.image =
    Config.imageFormat :: ((0#3 : BitVec 3) ++ c.address) :: policyByte c.policy.code c.capable c.group ::
      formatByte (BitVec.ofNat 3 c.slotCount) c.format.code :: (wordBytes c.lineTicks ++ byteOf c.vb :: (wordBytes c.h ++
      (wordBytes c.w ++ (wordBytes c.lockWindow ++ (wordBytes c.slewLimit ++ (wordBytes c.segmentDelay ++
      (bytes24 c.background ++ 0 :: 0 :: bytes16 (crc16 c.imageBytes)))))))) := rfl

theorem imageBytes_list (c : Settings) : c.imageBytes =
    Config.imageFormat :: ((0#3 : BitVec 3) ++ c.address) :: policyByte c.policy.code c.capable c.group ::
      formatByte (BitVec.ofNat 3 c.slotCount) c.format.code :: (wordBytes c.lineTicks ++ byteOf c.vb :: (wordBytes c.h ++
      (wordBytes c.w ++ (wordBytes c.lockWindow ++ (wordBytes c.slewLimit ++ (wordBytes c.segmentDelay ++
      (bytes24 c.background ++ [0, 0]))))))) := rfl

theorem wordBytes_word16 (x y : Byte) : wordBytes (word16 x y).toNat = [x, y] := by
  rw [wordBytes, BitVec.ofNat_toNat, BitVec.setWidth_eq, bytes16_word16]

theorem byteOf_toNat (x : Byte) : byteOf x.toNat = x := by rw [byteOf, BitVec.ofNat_toNat, BitVec.setWidth_eq]

theorem toNat_wordBytes {n : Nat} (h : n < 65536) :
    (word16 ((BitVec.ofNat 16 n).extractLsb' 8 8) ((BitVec.ofNat 16 n).extractLsb' 0 8)).toNat = n := by
  rw [word16_bytes, BitVec.toNat_ofNat]
  exact Nat.mod_eq_of_lt h

/-- The image of a configuration within the ranges reads as that configuration. -/
theorem imageSettings_image (h : InRange c) : imageSettings c.image = c := by
  obtain ⟨ticks, vb, lines, width, lock, slew, segment, slots⟩ := inRange_lt h
  obtain ⟨group, capable, policy, -, -⟩ := policyByte_fields c.policy.code c.capable c.group
  obtain ⟨format, count, -, -⟩ := formatByte_fields (BitVec.ofNat 3 c.slotCount) c.format.code
  have policies (p : AdvancePolicy) : (if p.code = true then AdvancePolicy.newest else .next) = p := by cases p <;> rfl
  obtain ⟨address, -, -⟩ := addressByte_fields c.address
  have byte : (byteOf c.vb).toNat = c.vb := (BitVec.toNat_ofNat _ _).trans (Nat.mod_eq_of_lt vb)
  have code : (BitVec.ofNat 3 c.slotCount).toNat = c.slotCount :=
    (BitVec.toNat_ofNat _ _).trans (Nat.mod_eq_of_lt slots)
  rw [image_eq]
  simp only [imageSettings, byteAt, wordBytes, bytes16, bytes24, List.cons_append, List.nil_append,
    List.getD_cons_succ, List.getD_cons_zero, address, group, capable, policy, policies, format, ofCode_code,
    Option.getD_some, count, code, byte, append_bytes24, toNat_wordBytes ticks, toNat_wordBytes lines,
    toNat_wordBytes width, toNat_wordBytes lock, toNat_wordBytes slew, toNat_wordBytes segment]

/-- The image of a configuration within the ranges is settled. -/
theorem checkImage_image (h : InRange c) (period : 500000 ≤ c.period ∧ c.period ≤ 4000000) :
    checkImage c.image = .ok c := by
  have settings := imageSettings_image h
  obtain ⟨-, -, -, policy, -⟩ := policyByte_fields c.policy.code c.capable c.group
  obtain ⟨format, -, unused, -⟩ := formatByte_fields (BitVec.ofNat 3 c.slotCount) c.format.code
  obtain ⟨-, address, -⟩ := addressByte_fields c.address
  refine checkImage_eq_ok_iff.2 ⟨?_, rfl, outOfRange_eq_none_iff.2 ⟨settings.symm ▸ h, ?_⟩, ?_, settings.symm ▸ period,
    settings⟩
  · rw [← imageBytes_eq]
    exact (word16_bytes _).symm
  · change (PixelFormat.ofCode ((formatByte (BitVec.ofNat 3 c.slotCount) c.format.code).extractLsb' 0 3)).isSome = true
    rw [format, ofCode_code]
    rfl
  · change (_ == 0 && (policyByte c.policy.code c.capable c.group).extractLsb' 5 3 == 0 &&
      (formatByte (BitVec.ofNat 3 c.slotCount) c.format.code).extractLsb' 6 2 == 0 && _ && _) = true
    rw [policy, unused]
    exact congrArg (fun x => x == 0 && true && true && true && true) address

/-- A settled image is that of its configuration. -/
theorem image_of_checkImage (length : image.length = 24) (h : checkImage image = .ok c) : c.image = image := by
  obtain ⟨crc, code, fields, unused, -, rfl⟩ := checkImage_eq_ok_iff.1 h
  have format := code_of_ofCode _ (outOfRange_eq_none_iff.1 fields).2
  match image, length with
  | [x0, x1, x2, x3, x4, x5, x6, x7, x8, x9, x10, x11, x12, x13, x14, x15, x16, x17, x18, x19, x20, x21, x22, x23], _ =>
    simp only [unusedZero, Bool.and_eq_true, beq_iff_eq] at unused
    obtain ⟨⟨⟨⟨address, policy⟩, slots⟩, rfl⟩, rfl⟩ := unused
    have policies (b : Bool) : (if b = true then AdvancePolicy.newest else .next).code = b := by cases b <;> rfl
    have bytes : (imageSettings [x0, x1, x2, x3, x4, x5, x6, x7, x8, x9, x10, x11, x12, x13, x14, x15, x16, x17, x18, x19,
        0, 0, x22, x23]).imageBytes =
        [x0, x1, x2, x3, x4, x5, x6, x7, x8, x9, x10, x11, x12, x13, x14, x15, x16, x17, x18, x19, 0, 0] := by
      simp only [byteAt, List.getD_cons_succ, List.getD_cons_zero] at code address policy slots format
      simp only [imageBytes_list, imageSettings, byteAt, List.getD_cons_succ, List.getD_cons_zero, policies,
        policyByte_of_fields _ policy, BitVec.ofNat_toNat, BitVec.setWidth_eq, format, formatByte_of_fields _ slots,
        addressByte_of_fields _ address, wordBytes_word16, byteOf_toNat, bytes24_append, List.cons_append,
        List.nil_append, ← code]
    have last : crc16 [x0, x1, x2, x3, x4, x5, x6, x7, x8, x9, x10, x11, x12, x13, x14, x15, x16, x17, x18, x19, 0, 0] =
        word16 x22 x23 := crc
    rw [Settings.image, bytes, last, bytes16_word16]
    rfl

/-- The first 22 bytes, as 13.7 lays them out. -/
theorem imageBytes_numbers (h : InRange c) : c.imageBytes =
    [0x31] ++ numberBytes 1 c.address.toNat ++
      numberBytes 1 (c.group.toNat + 8 * c.capable.toNat + 16 * position [.next, .newest] c.policy) ++
      numberBytes 1 (position [.p24, .p16, .p12, .p30] c.format + 8 * c.slotCount) ++ numberBytes 2 c.lineTicks ++
      numberBytes 1 c.vb ++ numberBytes 2 c.h ++ numberBytes 2 c.w ++ numberBytes 2 c.lockWindow ++
      numberBytes 2 c.slewLimit ++ numberBytes 2 c.segmentDelay ++ numberBytes 3 c.background.toNat ++ [0, 0] := by
  obtain ⟨-, -, -, -, policy⟩ := policyByte_fields c.policy.code c.capable c.group
  obtain ⟨-, -, -, format⟩ := formatByte_fields (BitVec.ofNat 3 c.slotCount) c.format.code
  obtain ⟨-, -, address⟩ := addressByte_fields c.address
  have words (n : Nat) : wordBytes n = numberBytes 2 n := lineItem_eq n
  have byte (x : Byte) (n : Nat) (e : x.toNat = n) : numberBytes 1 n = [x] := by rw [← e, numberBytes_byte]
  have policies : position [.next, .newest] c.policy = c.policy.code.toNat := by cases c.policy <;> rfl
  have formats : position [.p24, .p16, .p12, .p30] c.format = c.format.code.toNat := by cases c.format <;> rfl
  have slots : (BitVec.ofNat 3 c.slotCount).toNat = c.slotCount :=
    (BitVec.toNat_ofNat _ _).trans (Nat.mod_eq_of_lt (by have := h.slotCount; omega))
  rw [slots] at format
  rw [imageBytes_list, policies, formats, byte _ _ policy, byte _ _ format]
  simp only [address, words, bytes24_eq, numberBytes_one, byteOf, List.cons_append, List.nil_append, List.append_assoc]
  rfl

/-- Settles O7: an image within the ranges reads as it was written, and a settled one is written as it reads. -/
theorem imageRoundTrip : Obligations.ImageRoundTrip := by
  refine ⟨fun c address slots ticks vb h w lock slew segment period => ?_, fun image c => image_of_checkImage⟩
  have inside : InRange c := ⟨address, by omega, ticks, vb, h, w, lock, slew, segment⟩
  refine ⟨length_image c, checkImage_image inside period, ?_, ?_⟩
  · rw [← imageBytes_eq]
    exact imageBytes_numbers inside
  · rw [drop_image, bytes16_eq, imageBytes_eq]

end Sys2Proof

/-! ### Ring reception (R96 to R107, R190) -/

namespace Sys2Proof

open Sys2Proof.Machine

variable {s : State} {e : Elapsed} {rest : List Byte} {order : FrameOrder} {h : RingHeader} {arrival : Tick}

/-! #### Signal and framing -/

theorem ringLoss_eq : s.ringLoss =
    { s with
      ringIn := { s.ringIn with state := .down, packet := none, signalLost := bump s.ringIn.signalLost },
      ringOut := { s.ringOut with occupancy := s.ringOut.occupancy - s.ringIn.reservation } } := rfl

theorem ringTruncate_eq : s.ringTruncate =
    if s.ringIn.packet.isSome then
      { s with
        ringIn := { s.ringIn with state := .hunt, packet := none, truncated := bump s.ringIn.truncated },
        ringOut := { s.ringOut with occupancy := s.ringOut.occupancy - s.ringIn.reservation } }
    else s := by
  unfold State.ringTruncate
  cases receiving : s.ringIn.packet with
  | none => rfl
  | some p => rfl

/-- A start marker truncates the packet in reception and begins another. -/
theorem ringMarker_eq (up : s.ringIn.state ≠ .down) : s.ringMarker =
    { s with
      ringIn :=
        { s.ringIn with
          state := .header, packet := some { arrival := s.now, taken := [], header := none, reserved := false },
          truncated := if s.ringIn.packet.isSome then bump s.ringIn.truncated else s.ringIn.truncated },
      ringOut := { s.ringOut with occupancy := s.ringOut.occupancy - s.ringIn.reservation } } := by
  rw [State.ringMarker, if_neg up, ringTruncate_eq]
  cases receiving : s.ringIn.packet with
  | none =>
    have room : s.ringIn.reservation = 0 := by simp [RingReceiver.reservation, receiving]
    rw [room]
    rfl
  | some p => rfl

/-! #### Symbols -/

theorem ringData_of_idle (b : Byte) (idle : s.ringIn.packet = none) : s.ringData order b = s := by
  simp [State.ringData, idle]

theorem ringData_of_eighth {p : RingRxPacket} (b : Byte) (receiving : s.ringIn.packet = some p) (header : p.header = none)
    (last : p.taken.length = 7) : s.ringData order b = s.ringEighthByte [b] := by
  simp [State.ringData, receiving, header, last]

theorem ringData_of_last {p : RingRxPacket} (b : Byte) (receiving : s.ringIn.packet = some p) (header : p.header = some h)
    (last : p.taken.length = h.length.toNat + 1) : s.ringData order b = s.ringLastByte [b] order := by
  simp [State.ringData, receiving, header, last]

/-- A byte that completes nothing joins what is collected. -/
theorem ringData_of_short {p : RingRxPacket} (b : Byte) (receiving : s.ringIn.packet = some p)
    (short : (p.header = none ∧ p.taken.length < 7) ∨
      ∃ h, p.header = some h ∧ p.taken.length < h.length.toNat + 1) :
    s.ringData order b =
      { s with ringIn := { s.ringIn with packet := some { p with taken := p.taken ++ [b] } } } := by
  have one {n : Nat} (k : p.taken.length < n) : [b].take (n - p.taken.length) = [b] :=
    List.take_of_length_le (by simp; omega)
  rcases short with ⟨header, k⟩ | ⟨h, header, k⟩
  · simp only [State.ringData, receiving, header, k, if_true, RingReceiver.collect, roomFor, one k]
    rfl
  · simp only [State.ringData, receiving, header, k, if_true, RingReceiver.collect, roomFor, one k]
    rfl

theorem ringReceives_serialBits (code : BitVec 2) (bits : Byte) :
    s.ringReceives order (serialBits code bits) = s.ringSymbol order (takeSymbol code bits) := by
  rw [State.ringReceives, receiveSerial_serialBits]

/-- Settles O8: signal and framing by the receiver's equations, ten bits by the symbol that they are taken as. -/
theorem ringSignalAndFraming : Obligations.RingSignalAndFraming := by
  refine ⟨⟨fun e s running => exec_ringLossOfSignal running, fun e s running => exec_ringSignalPresent running⟩,
    ⟨fun e s running up => ?_, fun e s running => ?_⟩, fun e order code bits s running => ?_⟩
  · rw [exec_ringStartMarker running, ringMarker_eq up]
  · rw [exec_ringFill running, ringTruncate_eq]
  · intro b t
    have taken : t = b.ringSymbol order (takeSymbol code bits) := ringReceives_serialBits code bits
    rw [taken]
    refine ⟨fun marker => ?_, fun fill => ?_, fun x data => ⟨fun idle => ?_, fun p receiving => ⟨fun header last => ?_,
      fun h header last => ?_, fun short => ?_⟩⟩⟩
    · rw [marker, exec_ringStartMarker running]
      rfl
    · rw [fill, exec_ringFill running]
      rfl
    · rw [data]
      exact ringData_of_idle x idle
    · rw [data, exec_ringHeaderTaken running]
      exact congrArg _ (ringData_of_eighth x receiving header last).symm
    · rw [data, exec_ringPacketComplete running]
      exact congrArg _ (ringData_of_last x receiving header last).symm
    · rw [data]
      exact ringData_of_short x receiving short

/-! #### Headers -/

/-- A header that has come in is examined as it was corrected. -/
theorem exec_ringHeaderTaken_of_headerIn {fixed : Bool} (hh : RingHeaderIn e rest fixed h arrival s) :
    exec (.ringHeaderTaken e rest) s = .next ((ringBase e fixed s).ringHeaderGood h arrival) := by
  rw [exec_ringHeaderTaken hh.1, ringEighthByte_of_headerIn hh]

theorem ownPacket_iff : s.ownPacket h = true ↔ ∃ c, s.active = some c ∧ h.origin = c.address := by
  unfold State.ownPacket
  cases s.active <;> simp

theorem not_ownPacket (foreign : ∀ c, s.active = some c → h.origin ≠ c.address) : ¬ s.ownPacket h = true := by
  rw [ownPacket_iff]
  exact fun ⟨c, active, same⟩ => foreign c active same

theorem size_eq : h.size = if h.length = 0 then 8 else 10 + h.length.toNat := by
  have zero : h.length.toNat = 0 ↔ h.length = 0 := by
    rw [← BitVec.toNat_inj]
    exact Iff.rfl
  exact if_congr zero rfl rfl

theorem ringHeaderGood_of_long (long : 56 < h.length.toNat) : s.ringHeaderGood h arrival =
    { s with ringIn := { s.ringIn with state := .hunt, packet := none, lengthBad := bump s.ringIn.lengthBad } } :=
  if_pos long

theorem ringHeaderGood_of_own (short : h.length.toNat ≤ 56) (own : s.ownPacket h = true) : s.ringHeaderGood h arrival =
    ({ s with ringIn := { s.ringIn with state := .hunt, packet := none, stripped := bump s.ringIn.stripped } } :
      State).ownReturned h.sequence :=
  (if_neg (Nat.not_lt.2 short)).trans (if_pos own)

section Foreign

variable (short : h.length.toNat ≤ 56) (foreign : ∀ c, s.active = some c → h.origin ≠ c.address)
include short foreign

theorem ringHeaderGood_of_orphan (hops : h.hops = 0) : s.ringHeaderGood h arrival =
    { s with ringIn := { s.ringIn with state := .hunt, packet := none, orphan := bump s.ringIn.orphan } } :=
  (if_neg (Nat.not_lt.2 short)).trans ((if_neg (not_ownPacket foreign)).trans (if_pos hops))

theorem ringHeaderGood_of_full (hops : h.hops ≠ 0)
    (full : 160 < s.ringOut.occupancy + (if h.length = 0 then 8 else 10 + h.length.toNat)) :
    s.ringHeaderGood h arrival =
      { s with
        ringIn := { s.ringIn with state := .hunt, packet := none, forwardOverflow := bump s.ringIn.forwardOverflow } } := by
  rw [← size_eq] at full
  exact (if_neg (Nat.not_lt.2 short)).trans ((if_neg (not_ownPacket foreign)).trans ((if_neg hops).trans (if_pos full)))

/-- Room for the whole packet is reserved, and one without a payload is complete. -/
theorem ringHeaderGood_of_room (hops : h.hops ≠ 0)
    (room : s.ringOut.occupancy + (if h.length = 0 then 8 else 10 + h.length.toNat) ≤ 160) :
    let kept : State :=
      { s with
        ringOut :=
          { s.ringOut with
            occupancy := s.ringOut.occupancy + (if h.length = 0 then 8 else 10 + h.length.toNat) } }
    s.ringHeaderGood h arrival =
      if h.length = 0 then kept.ringComplete h true [] arrival .plain
      else
        { kept with
          ringIn :=
            { s.ringIn with
              state := .payload,
              packet := some { arrival := arrival, taken := [], header := some h, reserved := true } } } := by
  rw [← size_eq] at room ⊢
  exact (if_neg (Nat.not_lt.2 short)).trans ((if_neg (not_ownPacket foreign)).trans
    ((if_neg hops).trans (if_neg (Nat.not_lt.2 room))))

end Foreign

/-- Settles O9: by the test that discards the header. -/
theorem ringHeaderDiscards : Obligations.RingHeaderDiscards := by
  refine ⟨fun e rest p s running receiving header whole bad => ?_, fun e rest fixed h arrival s hh => ?_⟩
  · rw [exec_ringHeaderTaken running]
    simp only [State.ringEighthByte, receiving, header, whole, if_true, State.ringHeaderCheck, bad]
    rfl
  · rw [exec_ringHeaderTaken_of_headerIn hh]
    exact ⟨fun long => congrArg _ (ringHeaderGood_of_long long),
      fun short foreign hops => congrArg _ (ringHeaderGood_of_orphan short foreign hops),
      fun short foreign hops full => congrArg _ (ringHeaderGood_of_full short foreign hops full)⟩

end Sys2Proof

/-! ### Own packets, room, and packets that are passed on (R101 to R110) -/

namespace Sys2Proof

open Sys2Proof.Machine

variable {s : State} {e : Elapsed} {rest : List Byte} {order : FrameOrder} {h : RingHeader} {arrival : Tick}
  {c : Settings} {payload : List Byte}

/-! #### The round trip of an own packet -/

theorem setRing_eq (r : RingState) : s.setRing r =
    { s with
      ringOut := { s.ringOut with ring := r },
      notices := if s.ringOut.ring = r then s.notices else s.notices ||| 0x0008#16 } := by
  unfold State.setRing
  dsimp only
  split <;> rfl

/-- The first entry of the sequence, and every earlier one, leaves the list (R101). -/
theorem ownReturned_of_found {before after : List Outstanding} {o : Outstanding} {q : Byte}
    (list : s.ringOut.outstanding = before ++ o :: after) (found : o.sequence = q)
    (first : ∀ x ∈ before, x.sequence ≠ q) :
    s.ownReturned q =
      { s with
        ringOut := { s.ringOut with outstanding := after, ring := .intact },
        notices := if s.ringOut.ring = .intact then s.notices else s.notices ||| 0x0008#16 } := by
  have index : (before ++ o :: after).findIdx? (fun x => x.sequence == q) = some before.length := by
    have none_before : before.findIdx? (fun x => x.sequence == q) = none := by
      simpa [List.findIdx?_eq_none_iff] using first
    rw [List.findIdx?_append, none_before]
    simp [List.findIdx?_cons, found]
  have left : (before ++ o :: after).drop (before.length + 1) = after := by simp
  simp only [State.ownReturned, list, index, left, setRing_eq]
  rfl

theorem ownReturned_of_conflict {q : Byte} (absent : ∀ x ∈ s.ringOut.outstanding, x.sequence ≠ q) :
    s.ownReturned q =
      { s with
        ringOut := { s.ringOut with addressConflict := bump s.ringOut.addressConflict },
        roster := { s.roster with conflictHold := 16 }, notices := s.notices ||| 0x0080#16 } := by
  have index : s.ringOut.outstanding.findIdx? (fun x => x.sequence == q) = none := by
    simpa [List.findIdx?_eq_none_iff] using absent
  simp only [State.ownReturned, index]
  rfl

/-- Settles O10: by whether the sequence is in the outstanding list. -/
theorem ownPacketComesHome : Obligations.OwnPacketComesHome := by
  refine ⟨fun e rest fixed h arrival c before after o s hh short active own list found first => ?_,
    fun e rest fixed h arrival c s hh short active own absent => ?_⟩
  · rw [exec_ringHeaderTaken_of_headerIn hh, ringHeaderGood_of_own short (ownPacket_iff.2 ⟨c, active, own⟩)]
    exact congrArg _ (ownReturned_of_found list found first)
  · rw [exec_ringHeaderTaken_of_headerIn hh, ringHeaderGood_of_own short (ownPacket_iff.2 ⟨c, active, own⟩)]
    exact congrArg _ (ownReturned_of_conflict absent)

/-! #### Consumption -/

theorem consume_of_otherGroup (other : ∀ c, s.active = some c → h.group ≠ c.group) :
    s.consume h payload arrival = (s, false) := by
  unfold State.consume
  cases active : s.active with
  | none => rfl
  | some c => exact if_pos (other c active)

section OwnGroup

variable (active : s.active = some c) (group : h.group = c.group)
include active group

theorem consume_of_ownGroup : s.consume h payload arrival =
    (let handed := s.setRingIn { s.ringIn with consumed := bump s.ringIn.consumed }
    if h.kind = ringStanding then (handed.standingArrives c h payload, false)
    else if h.kind = ringLeave then (handed.leaveArrives h payload, false)
    else if h.kind = ringBeat then
      if h.length ≠ 9 ∨ h.origin = 31 then
        (s.setRingIn { s.ringIn with beatRefused := bump s.ringIn.beatRefused }, false)
      else handed.takeBeat c h (parseBeat payload) arrival
    else (s, false)) := by
  unfold State.consume
  rw [active]
  exact if_neg (not_not.2 group)

omit active group in
theorem consume_of_otherKind (beat : h.kind ≠ 0x01#8) (standing : h.kind ≠ 0x02#8) (leave : h.kind ≠ 0x03#8) :
    s.consume h payload arrival = (s, false) := by
  by_cases own : ∃ c, s.active = some c ∧ h.group = c.group
  · obtain ⟨c, active, group⟩ := own
    rw [consume_of_ownGroup active group]
    exact (if_neg standing).trans ((if_neg leave).trans (if_neg beat))
  · exact consume_of_otherGroup fun c active group => own ⟨c, active, group⟩

theorem consume_standing (kind : h.kind = 0x02#8) : s.consume h payload arrival =
    ((s.setRingIn { s.ringIn with consumed := bump s.ringIn.consumed }).standingArrives c h payload, false) := by
  rw [consume_of_ownGroup active group]
  exact if_pos kind

theorem consume_leave (kind : h.kind = 0x03#8) : s.consume h payload arrival =
    ((s.setRingIn { s.ringIn with consumed := bump s.ringIn.consumed }).leaveArrives h payload, false) := by
  rw [consume_of_ownGroup active group]
  exact (if_neg (by rw [kind]; decide)).trans (if_pos kind)

theorem consume_beat (kind : h.kind = 0x01#8) : s.consume h payload arrival =
    if h.length ≠ 9 ∨ h.origin = 31 then
      (s.setRingIn { s.ringIn with beatRefused := bump s.ringIn.beatRefused }, false)
    else
      (s.setRingIn { s.ringIn with consumed := bump s.ringIn.consumed }).takeBeat c h (parseBeat payload) arrival := by
  rw [consume_of_ownGroup active group]
  exact (if_neg (by rw [kind]; decide)).trans ((if_neg (by rw [kind]; decide)).trans (if_pos kind))

end OwnGroup

/-! #### Completion -/

/-- A packet that is tainted, bad, of another group or of another kind is passed on alone (R106, R108, R110). -/
theorem ringComplete_of_unconsumed {good : Bool} {body : List Byte}
    (unconsumed : h.taint = true ∨ good = false ∨ (∀ c, s.active = some c → h.group ≠ c.group) ∨
      (h.kind ≠ 0x01#8 ∧ h.kind ≠ 0x02#8 ∧ h.kind ≠ 0x03#8)) :
    s.ringComplete h good body arrival order = passed h good body arrival s := by
  rw [ringComplete_eq]
  rcases unconsumed with taint | bad | other | ⟨beat, standing, leave⟩
  · simp [taint]
  · simp [bad]
  · rw [consume_of_otherGroup (s := passed h good body arrival s) other]
    exact ite_self _
  · rw [consume_of_otherKind beat standing leave]
    exact ite_self _

/-- Settles O12: the packet is passed on and not consumed. -/
theorem ringPacketIsForwarded : Obligations.RingPacketIsForwarded := by
  intro e rest body order h arrival s hb unconsumed
  rw [exec_ringPacketComplete hb.1, ringLastByte_of_bodyIn hb, ringComplete_of_unconsumed unconsumed]

/-- A good packet that produces no frame start at once. -/
theorem ringComplete_of_consumed {body : List Byte} {u : State} (clean : h.taint = false)
    (taken : (passed h true body arrival s).consume h (body.take h.length.toNat) arrival = (u, false)) :
    s.ringComplete h true body arrival order = u := by
  rw [ringComplete_eq, clean]
  simp only [Bool.not_false, Bool.true_and, if_true, taken]
  rfl

theorem standingArrives_of_refused (refused : parseStanding payload = none ∨ h.origin = 31) :
    s.standingArrives c h payload = s.refuseContent := by
  unfold State.standingArrives
  rcases refused with bad | none_at
  · rw [bad]
  · split
    · exact if_pos none_at
    · rfl

theorem leaveArrives_of_refused (refused : h.origin = 31 ∨ payload.length ≠ 1) :
    s.leaveArrives h payload = s.refuseContent := if_pos refused

/-- Settles O11: with a payload the receiver goes on to it; without one the packet is complete, and its content or its
shape refuses it. -/
theorem ringHeaderReservesRoom : Obligations.RingHeaderReservesRoom := by
  intro e rest fixed h arrival s hh short foreign hops room b kept p t
  have taken : exec (.ringHeaderTaken e rest) s = .next (b.ringHeaderGood h arrival) :=
    exec_ringHeaderTaken_of_headerIn hh
  rw [taken, ringHeaderGood_of_room short foreign hops room]
  refine ⟨fun more => congrArg _ (if_neg more), fun whole => ?_⟩
  rw [if_pos whole]
  refine ⟨fun unconsumed => congrArg _ (ringComplete_of_unconsumed (unconsumed.imp_right .inr)),
    fun c clean active group => ?_⟩
  have active' : p.active = some c := active
  refine ⟨fun beat => congrArg _ (ringComplete_of_consumed clean ?_),
    fun other => congrArg _ (ringComplete_of_consumed clean ?_)⟩
  · rw [List.take_nil]
    exact (consume_beat active' group beat).trans (if_pos (.inl (by rw [whole]; decide)))
  · rw [List.take_nil]
    rcases other with standing | leave
    · exact (consume_standing active' group standing).trans
        (congrArg (·, false) (standingArrives_of_refused (.inl rfl)))
    · exact (consume_leave active' group leave).trans
        (congrArg (·, false) (leaveArrives_of_refused (.inr (by decide))))

end Sys2Proof

/-! ### STANDINGs and LEAVEs at the roster (R49 to R54, R69, R70) -/

namespace Sys2Proof

open Sys2Proof.Machine

variable {s : State} {e : Elapsed} {rest body : List Byte} {order : FrameOrder} {h : RingHeader} {arrival : Tick}
  {c : Settings} {kind : Byte}

/-! #### Tables -/

theorem findEntry_putEntry (x : Entry) (a : Address) (es : List Entry) :
    findEntry a (putEntry x es) = if a = x.address then some x else findEntry a es := by
  unfold findEntry
  induction es with
  | nil =>
    by_cases same : a = x.address
    · simp [putEntry, same]
    · simp [putEntry, same, Ne.symm same]
  | cons y es ih =>
    unfold putEntry
    split
    · by_cases same : a = x.address
      · simp [same]
      · simp [List.find?_cons, same, Ne.symm same]
    · split
      · next old =>
        by_cases same : a = x.address
        · simp [same]
        · have other : (y.address == a) = false := by simpa [← old] using Ne.symm same
          simp [same, Ne.symm same, other]
      · next other =>
        by_cases same : y.address = a
        · have apart : a ≠ x.address := fun k => other (k ▸ same.symm)
          simp [same, apart]
        · have absent : (y.address == a) = false := by simpa using same
          rw [List.find?_cons, absent, List.find?_cons, absent]
          exact ih

theorem findEntry_eq_some {a : Address} {es : List Entry} {y : Entry} (h : findEntry a es = some y) :
    y ∈ es ∧ y.address = a :=
  ⟨List.mem_of_find?_eq_some h, by simpa using List.find?_some h⟩

theorem findEntry_eq_none_iff {a : Address} {es : List Entry} : findEntry a es = none ↔ ∀ y ∈ es, y.address ≠ a := by
  simp [findEntry]

theorem isSome_findEntry {a : Address} {es : List Entry} :
    (findEntry a es).isSome = es.any fun x => x.address == a := by
  rw [Bool.eq_iff_iff, findEntry, List.find?_isSome, List.any_eq_true]

/-! #### A good packet of the own group -/

/-- What its consumer answers, and the frame start that may follow at once. -/
theorem exec_ringPacketComplete_of_ownGroup {u : State} {fires : Bool}
    (hb : OwnGroupIn e rest kind h body arrival c s)
    (taken : (passed h true body arrival (s.elapse e)).consume h (body.take h.length.toNat) arrival = (u, fires)) :
    exec (.ringPacketComplete e rest order) s = .next (u.immediateFrameStart fires order) := by
  rw [exec_ringPacketComplete hb.1.1, ringLastByte_of_ownGroup hb]
  simp only [taken]

theorem exec_ringPacketComplete_standing (hb : OwnGroupIn e rest 0x02 h body arrival c s) :
    exec (.ringPacketComplete e rest order) s =
      .next ((consumed h body arrival (s.elapse e)).standingArrives c h (body.take h.length.toNat)) := by
  have ⟨_, _, _, kind, active, group⟩ := hb
  exact exec_ringPacketComplete_of_ownGroup hb (consume_standing (s := passed _ _ _ _ _) active group kind)

theorem exec_ringPacketComplete_leave (hb : OwnGroupIn e rest 0x03 h body arrival c s) :
    exec (.ringPacketComplete e rest order) s =
      .next ((consumed h body arrival (s.elapse e)).leaveArrives h (body.take h.length.toNat)) := by
  have ⟨_, _, _, kind, active, group⟩ := hb
  exact exec_ringPacketComplete_of_ownGroup hb (consume_leave (s := passed _ _ _ _ _) active group kind)

/-! #### A STANDING -/

/-- The yield to a capable MEMBER is a departure that leaves no current origin (R69). -/
theorem capableMember_of_yields {a : Address} (yields : s.role.role = .origin ∧ a.toNat < c.address.toNat) :
    s.capableMember c a =
      { departed .follower s with role := { (departed .follower s).role with current := none } } := by
  rw [State.capableMember, if_pos yields, State.yieldByMember, departOrigin_eq]
  rfl

theorem capableMember_of_stays {a : Address} (stays : ¬ (s.role.role = .origin ∧ a.toNat < c.address.toNat)) :
    s.capableMember c a = s := if_neg stays

theorem takeStanding_of_new {a : Address} {q : Byte} {x : Standing} (other : a ≠ c.address)
    (new : findEntry a s.roster.entries = none) :
    s.takeStanding c a q x =
      s.storeEntry { address := a, member := false, said := x, silence := 0, lastSequence := q } := by
  simp only [State.takeStanding, if_neg other, new]

theorem takeStanding_of_duplicate {a : Address} {q : Byte} {x : Standing} {old : Entry} (other : a ≠ c.address)
    (known : findEntry a s.roster.entries = some old) (same : old.lastSequence = q) :
    s.takeStanding c a q x =
      s.setRoster { s.roster with duplicateStanding := bump s.roster.duplicateStanding } := by
  simp only [State.takeStanding, if_neg other, known, if_pos same]

/-- A refreshed entry, which is a MEMBER from now on. -/
theorem takeStanding_of_refreshed {a : Address} {q : Byte} {x : Standing} {old : Entry} (other : a ≠ c.address)
    (known : findEntry a s.roster.entries = some old) (fresh : old.lastSequence ≠ q) :
    s.takeStanding c a q x =
      (let stored := s.storeEntry { address := a, member := true, said := x, silence := 0, lastSequence := q }
      let told := if old.member = true then stored else stored.raise .rosterChanged
      if (x.capable && (!old.member || !old.said.capable)) = true then told.capableMember c a else told) := by
  simp only [State.takeStanding, if_neg other, known, if_neg fresh]
  cases old.member <;> simp

/-- Settles O13: by what the table holds at the address. -/
theorem standingUpdatesRoster : Obligations.StandingUpdatesRoster := by
  refine ⟨fun e rest body order h arrival c x s hb origin parsed => ?_, fun x a es =>
    ⟨findEntry_putEntry x a es, fun y => findEntry_eq_some, findEntry_eq_none_iff⟩⟩
  have taken : exec (.ringPacketComplete e rest order) s =
      .next ((consumed h body arrival (s.elapse e)).takeStanding c h.origin h.sequence x) := by
    rw [exec_ringPacketComplete_standing hb, State.standingArrives, parsed]
    exact congrArg _ (if_neg origin)
  rw [taken]
  generalize consumed h body arrival (s.elapse e) = b
  dsimp only
  refine ⟨fun own => by rw [own, takeStanding_own], fun other => ⟨_, rfl, ?_⟩⟩
  cases known : findEntry h.origin b.roster.entries with
  | none =>
    rw [takeStanding_of_new other known]
    exact ⟨rfl, fun _ => rfl, fun yields => nomatch yields.2.1⟩
  | some old =>
    by_cases same : old.lastSequence = h.sequence
    · have seen : (old.lastSequence != h.sequence) = false := by simpa using same
      simp only [seen, Bool.false_and, if_pos same]
      rw [takeStanding_of_duplicate other known same]
      exact ⟨rfl, fun _ => rfl, fun yields => nomatch yields.2.1⟩
    · have fresh : (old.lastSequence != h.sequence) = true := by simpa using same
      simp only [fresh, Bool.true_and, if_neg same]
      rw [takeStanding_of_refreshed other known same]
      cases becomes : x.capable && (!old.member || !old.said.capable) with
      | false =>
        refine ⟨?_, fun _ => ?_, fun yields => nomatch yields.2.1⟩ <;> cases old.member <;> rfl
      | true =>
        simp only [if_true, true_and]
        by_cases yields : b.role.role = .origin ∧ h.origin.toNat < c.address.toNat
        · rw [capableMember_of_yields (by cases old.member <;> exact yields)]
          refine ⟨?_, fun stays => (stays yields).elim, fun _ => ?_⟩ <;> cases old.member <;> rfl
        · rw [capableMember_of_stays (by cases old.member <;> exact yields)]
          refine ⟨?_, fun _ => ?_, fun k => (yields k).elim⟩ <;> cases old.member <;> rfl

/-! #### A LEAVE -/

theorem takeLeave_eq (a : Address) (reason : Byte) : s.takeLeave a reason =
    { s with
      roster :=
        { s.roster with
          entries := s.roster.entries.filter (fun x => x.address != a), leavesTaken := bump s.roster.leavesTaken,
          lastLeave := some { address := a, reason := reason } },
      notices := if s.roster.entries.any (fun x => x.address == a) then s.notices ||| 0x0001#16 else s.notices,
      role := if s.role.current = some a then { s.role with current := none, beatsMissed := 3 } else s.role } := by
  unfold State.takeLeave State.originLeaves
  rw [isSome_findEntry]
  cases s.roster.entries.any (fun x => x.address == a) <;> by_cases current : s.role.current = some a <;>
    simp only [current, if_true, if_false, Bool.false_eq_true, State.raise_role, State.setRoster_role] <;> rfl

/-- Settles O14: a LEAVE removes the entry, and content that fails its check reaches no entry. -/
theorem leavesAndBadContent : Obligations.LeavesAndBadContent := by
  refine ⟨fun e rest body order h arrival c s hb origin one => ?_, fun e rest body order h arrival c s refused => ?_⟩
  · have length : h.length.toNat = 1 := congrArg BitVec.toNat one
    have whole : body.length = h.length.toNat + 2 := by
      obtain ⟨⟨-, p, -, -, -, whole, -⟩, -⟩ := hb
      exact whole
    have first : byteAt (body.take 1) 0 = byteAt body 0 := by cases body <;> rfl
    rw [exec_ringPacketComplete_leave hb, State.leaveArrives, if_neg, length, first, takeLeave_eq]
    rw [List.length_take, whole, length]
    simpa using origin
  · intro b
    rcases refused with ⟨hb, bad⟩ | ⟨hb, bad⟩
    · rw [exec_ringPacketComplete_standing hb, standingArrives_of_refused bad.symm]
      rfl
    · rw [exec_ringPacketComplete_leave hb, leaveArrives_of_refused]
      · rfl
      · refine bad.imp_right fun other whole => other (BitVec.eq_of_toNat_eq ?_)
        obtain ⟨⟨-, p, -, -, -, size, -⟩, -⟩ := hb
        rw [List.length_take, size, Nat.min_eq_left (Nat.le_add_right _ 2)] at whole
        exact whole

end Sys2Proof

/-! ### BEATs at the Role Controller and the Timing Unit (R63 to R68, R79 to R92) -/

namespace Sys2Proof

open Sys2Proof.Machine

variable {s : State} {e : Elapsed} {rest body : List Byte} {order : FrameOrder} {h : RingHeader} {arrival : Tick}
  {c : Settings} {beat : Beat}

/-! #### What the Role Controller makes of a BEAT -/

theorem takeBeat_of_mismatch (period : beat.period.toNat ≠ c.period) :
    s.takeBeat c h beat arrival = (s.refusePeriod, false) := if_pos period

theorem takeBeat_of_yields (period : beat.period.toNat = c.period) (origin : s.role.role = .origin)
    (lower : h.origin.toNat < c.address.toNat) :
    s.takeBeat c h beat arrival = (departed .follower s).acceptBeat c h beat arrival := by
  rw [← departOrigin_eq]
  exact (if_neg (not_not.2 period)).trans ((if_pos origin).trans (if_pos lower))

theorem takeBeat_of_duel (period : beat.period.toNat = c.period) (origin : s.role.role = .origin)
    (higher : ¬ h.origin.toNat < c.address.toNat) :
    s.takeBeat c h beat arrival = (s.setRole { s.role with dueling := bump s.role.dueling }, false) :=
  (if_neg (not_not.2 period)).trans ((if_pos origin).trans (if_neg higher))

theorem takeBeat_of_accepted (period : beat.period.toNat = c.period) (other : s.role.role ≠ .origin)
    (accepts : s.role.accepts h.origin = true) :
    s.takeBeat c h beat arrival = s.acceptBeat c h beat arrival :=
  (if_neg (not_not.2 period)).trans ((if_neg other).trans (if_pos accepts))

theorem takeBeat_of_ignored (period : beat.period.toNat = c.period) (other : s.role.role ≠ .origin)
    (refuses : ¬ s.role.accepts h.origin = true) :
    s.takeBeat c h beat arrival = (s.setRole { s.role with ignoredBeats := bump s.role.ignoredBeats }, false) :=
  (if_neg (not_not.2 period)).trans ((if_neg other).trans (if_neg refuses))

/-- The three conditions of R64. -/
theorem accepts_iff {r : RoleUnit} {a : Address} : r.accepts a = true ↔
    r.current = none ∨ (∃ o, r.current = some o ∧ a.toNat ≤ o.toNat) ∨ 2 ≤ r.beatsMissed := by
  unfold RoleUnit.accepts
  cases current : r.current with
  | none => simp
  | some o =>
    have same : o = a ↔ o.toNat = a.toNat := BitVec.toNat_inj.symm
    simp [same]
    omega

/-! #### Acceptance (R65) -/

/-- The state once the Role Controller has taken an accepted BEAT. -/
def roleTook (h : RingHeader) (beat : Beat) (s : State) : State := { s with role := beatTaken h beat s.role }

/-- The take-up of the decision as the Timing Unit has left the epoch (R30). -/
def tookUp (beat : Beat) (s : State) : State :=
  { s with presentation := decisionTaken s.role.role s.timing.epoch beat s.presentation }

theorem takeUp_eq (r : Role) (epoch : Epoch) (p : Presentation) :
    p.takeUp r epoch beat.epoch beat.decision = decisionTaken r epoch beat p := by
  unfold Presentation.takeUp decisionTaken
  cases beat.decision <;> rfl

theorem acceptBeat_eq : s.acceptBeat c h beat arrival =
    (let timed := (roleTook h beat s).timingBeat c beat.epoch arrival h.delay
    (tookUp beat timed.1, timed.2)) := by
  simp only [State.acceptBeat, takeUp_eq]
  rfl

theorem timingBeat_of_saturated {epoch : Epoch} {delay : BitVec 16} (saturated : delay = 65535#16) :
    s.timingBeat c epoch arrival delay =
      ({ s with timing := { s.timing with saturatedDelay := bump s.timing.saturatedDelay } }, false) :=
  if_pos (congrArg BitVec.toNat saturated)

theorem timingBeat_of_timed {epoch : Epoch} {delay : BitVec 16} {timer : FrameTimer} (timed : delay ≠ 65535#16)
    (runs : s.timing.timer = some timer) :
    s.timingBeat c epoch arrival delay = s.timedBeat c epoch arrival delay timer := by
  unfold State.timingBeat
  rw [runs]
  exact if_neg fun same => timed (BitVec.eq_of_toNat_eq same)

/-- A timed BEAT leaves the Role Controller and the presentation as they are. -/
theorem tookUp_timedBeat {epoch : Epoch} {delay : BitVec 16} {timer : FrameTimer} :
    tookUp beat (s.timedBeat c epoch arrival delay timer).1 =
      { (s.timedBeat c epoch arrival delay timer).1 with
        presentation := decisionTaken s.role.role (s.timedBeat c epoch arrival delay timer).1.timing.epoch beat
          s.presentation } := by
  have kept := (Frame.timedBeat s c epoch arrival delay timer).2
  have role : s.role = _ := kept .role (by decide)
  have presentation : s.presentation = _ := kept .presentation (by decide)
  refine congrArg (State.setPresentation _) ?_
  rw [role, presentation]

/-! #### A BEAT that is handed over -/

/-- What a good BEAT of the right shape comes to. -/
theorem exec_ringPacketComplete_beat (hb : OwnGroupIn e rest 0x01 h body arrival c s) (nine : h.length = 9)
    (origin : h.origin ≠ 31) :
    exec (.ringPacketComplete e rest order) s =
      (let taken := (consumed h body arrival (s.elapse e)).takeBeat c h (parseBeat (body.take 9)) arrival
      .next (taken.1.immediateFrameStart taken.2 order)) := by
  have ⟨_, _, _, kind, active, group⟩ := hb
  have payload : body.take 9 = body.take h.length.toNat := by rw [nine]; rfl
  refine exec_ringPacketComplete_of_ownGroup hb ((consume_beat (s := passed h true body arrival (s.elapse e)) active group kind).trans ?_)
  rw [if_neg (not_or.2 ⟨not_not.2 nine, origin⟩), ← payload]
  rfl

/-- Settles O16: by the shape, the period, the role and the three conditions. -/
theorem beatsNotAccepted : Obligations.BeatsNotAccepted := by
  refine ⟨fun e rest body order h arrival c s hb shape => ?_,
    fun e rest body order h arrival c s hb nine origin => ?_⟩
  · have ⟨_, _, _, kind, active, group⟩ := hb
    exact exec_ringPacketComplete_of_ownGroup hb
      ((consume_beat (s := passed h true body arrival (s.elapse e)) active group kind).trans (if_pos shape))
  · rw [exec_ringPacketComplete_beat hb nine origin]
    generalize consumed h body arrival (s.elapse e) = b
    refine ⟨fun period => ?_, fun period role higher => ?_, fun o period role current other lower heard => ?_⟩
    · rw [takeBeat_of_mismatch period]
      rfl
    · rw [takeBeat_of_duel period role (by omega)]
      rfl
    · have refuses : ¬ b.role.accepts h.origin = true := by
        have apart : o.toNat ≠ h.origin.toNat := fun same => other (BitVec.eq_of_toNat_eq same)
        rw [accepts_iff, current]
        rintro (none | ⟨o', same, le⟩ | missed)
        · exact nomatch none
        · cases same
          omega
        · omega
      rw [takeBeat_of_ignored period role refuses]
      rfl

/-- Settles O17: the Timing Unit only counts the BEAT. -/
theorem saturatedBeatIsAccepted : Obligations.SaturatedBeatIsAccepted := by
  intro e rest body order h arrival c s hb nine origin b beat period role saturated accepts
  rw [exec_ringPacketComplete_beat hb nine origin, takeBeat_of_accepted period role (accepts_iff.2 accepts),
    acceptBeat_eq, timingBeat_of_saturated saturated]
  rfl

/-- A BEAT that finds HOLDOVER trims nothing. -/
theorem timedBeat_of_holdover {epoch : Epoch} {delay : BitVec 16} {timer : FrameTimer}
    (lock : s.timing.lock = .holdover) : (s.timedBeat c epoch arrival delay timer).2 = false := by
  unfold State.timedBeat
  simp only [lock]
  split <;> rfl

/-- Settles O18: the departure leaves HOLDOVER, from which the accepted BEAT is evaluated. -/
theorem originYieldsToLowerBeat : Obligations.OriginYieldsToLowerBeat := by
  intro e rest body order h arrival c s hb nine b beat period role lower left accepted takesUp
  have origin : h.origin ≠ 31 := by
    intro none_at
    have : c.address.toNat < 32 := c.address.isLt
    rw [none_at] at lower
    exact absurd lower (by simp; omega)
  have taken : exec (.ringPacketComplete e rest order) s =
      .next ((left.acceptBeat c h beat arrival).1.immediateFrameStart (left.acceptBeat c h beat arrival).2 order) := by
    rw [exec_ringPacketComplete_beat hb nine origin, takeBeat_of_yields period role lower]
  refine ⟨rfl, fun saturated => ?_, fun timer timed runs => ?_⟩
  · rw [taken, acceptBeat_eq, timingBeat_of_saturated saturated]
    rfl
  · have runs' : (roleTook h beat left).timing.timer = some timer := runs
    rw [taken, acceptBeat_eq, timingBeat_of_timed timed runs']
    dsimp only
    rw [tookUp_timedBeat, timedBeat_of_holdover rfl]
    rfl

/-! #### The correction (R80 to R89) -/

theorem setLock_eq (l : Lock) : s.setLock l =
    { s with
      timing := { s.timing with lock := l },
      notices := if l = s.timing.lock then s.notices else s.notices ||| 0x0004#16 } := by
  unfold State.setLock
  by_cases same : s.timing.lock = l
  · simp only [same, if_true]
    rfl
  · simp only [same, Ne.symm same, if_false]
    rfl

theorem inWindow_iff {d : Int} : inWindow c d = true ↔ (phaseError c.period d).natAbs ≤ c.lockWindow :=
  decide_eq_true_iff

/-- The estimate of R80, the delay widened. -/
theorem beatOrigin_eq (delay : BitVec 16) :
    beatOrigin c arrival delay = arrival - delay.setWidth 32 - BitVec.ofNat 32 c.segmentDelay := by
  unfold beatOrigin
  rw [BitVec.ofNat_toNat]

section Correction

variable {epoch : Epoch} {delay : BitVec 16} {timer : FrameTimer}

theorem timedBeat_free (lock : s.timing.lock = .free) :
    s.timedBeat c epoch arrival delay timer =
      (s.jump c (beatOrigin c arrival delay) epoch (signedTicks (beatOrigin c arrival delay) timer.next) timer,
        false) := by
  unfold State.timedBeat
  simp only [lock]

theorem timedBeat_unlocked (lock : s.timing.lock = .acquiring ∨ s.timing.lock = .holdover) :
    s.timedBeat c epoch arrival delay timer =
      (if inWindow c (signedTicks (beatOrigin c arrival delay) timer.next) = true then
        (s.confirmLock c epoch (signedTicks (beatOrigin c arrival delay) timer.next), false)
      else
        (s.jump c (beatOrigin c arrival delay) epoch (signedTicks (beatOrigin c arrival delay) timer.next) timer,
          false)) := by
  unfold State.timedBeat
  rcases lock with lock | lock <;> simp only [lock]

theorem timedBeat_locked (lock : s.timing.lock = .locked) :
    s.timedBeat c epoch arrival delay timer =
      (let d := signedTicks (beatOrigin c arrival delay) timer.next
      if inWindow c d = true then (s.trim c epoch d timer, trimFires c s.now timer.next d)
      else if s.timing.slip = 0 then (s.slipOnce c epoch d, false)
      else (s.jump c (beatOrigin c arrival delay) epoch d timer, false)) := by
  unfold State.timedBeat
  simp only [lock]

theorem timedBeat_reference (lock : s.timing.lock = .reference) :
    s.timedBeat c epoch arrival delay timer = (s, false) := by
  unfold State.timedBeat
  simp only [lock]

/-- A trim produces the frame start at once in LOCKED alone, within the window and by a negative correction (R84). -/
theorem timedBeat_fires_iff : (s.timedBeat c epoch arrival delay timer).2 = true ↔
    s.timing.lock = .locked ∧ inWindow c (signedTicks (beatOrigin c arrival delay) timer.next) = true ∧
      trimFires c s.now timer.next (signedTicks (beatOrigin c arrival delay) timer.next) = true := by
  cases lock : s.timing.lock with
  | free => simp [timedBeat_free lock]
  | acquiring | holdover =>
    rw [timedBeat_unlocked (by simp [lock])]
    split <;> simp
  | reference => simp [timedBeat_reference lock]
  | locked =>
    rw [timedBeat_locked lock]
    dsimp only
    split
    · next near => simp [near]
    · next far =>
      split <;> simp [far]

end Correction

end Sys2Proof

/-! ### A timed BEAT by the lock state, and the frame start that a trim produces (R82 to R89) -/

namespace Sys2Proof

open Sys2Proof.Machine

variable {s : State} {e : Elapsed} {order : FrameOrder} {arrival : Tick} {c : Settings} {epoch : Epoch}
  {delay : BitVec 16} {timer : FrameTimer} {t0 : Tick} {d : Int}

/-! #### The Timing Unit through a frame start (R77) -/

/-- The Timing Unit has the timer and the counts of `u`, which no block but itself changes. -/
def StartFields (u : TimingUnit) (s : State) : Prop :=
  s.timing.timer = u.timer ∧ s.timing.epoch = u.epoch ∧ s.timing.frameCount = u.frameCount ∧
    s.timing.timedMissed = u.timedMissed

namespace StartFields

variable {u : TimingUnit}

theorem of_timing {s t : State} (same : s.timing = t.timing) (h : StartFields u s) : StartFields u t := by
  unfold StartFields
  rw [← same]
  exact h

theorem setLock {l : Lock} (h : StartFields u s) : StartFields u (s.setLock l) := by
  rw [setLock_eq]
  exact h

theorem claim (h : StartFields u s) : StartFields u (s.claim c) :=
  setLock (s := State.setTiming (State.setRole _ _) _) h

theorem roleFrameStart (h : StartFields u s) : StartFields u (s.roleFrameStart c) := by
  unfold State.roleFrameStart
  dsimp only
  split
  · split
    · split
      · exact claim (s := State.setRole _ _) h
      · exact h
    · exact h
  · split
    · exact claim (s := State.setRole _ _) h
    · exact h
  · exact h
  · exact h

theorem examineLock {t : Tick} (h : StartFields u s) : StartFields u (s.examineLock t) := by
  unfold State.examineLock
  split
  · exact iteInduction (fun _ => setLock (s := State.setTiming _ _) h) fun _ => h
  · exact iteInduction (fun _ => setLock (s := State.setTiming _ _) h) fun _ => h
  · exact iteInduction (fun _ => h) fun _ => iteInduction (fun _ => setLock (s := State.setTiming _ _) h) fun _ => h
  · exact h
  · exact h

theorem framePart {cut : Bool} {ticks : Tick} {x : FramePart} (h : StartFields u s) :
    StartFields u (s.framePart c cut ticks x) := by
  cases x with
  | role => exact h.roleFrameStart
  | settle | holds => exact h
  | present => exact h.of_timing ((Frame.presentationStep s).2 .timing (by decide))
  | firstLine => exact h.of_timing ((Frame.beginLine s c 0).2 .timing (by decide))
  | compose => exact h.of_timing ((Frame.composition s c ticks).2 .timing (by decide))
  | offer => exact h.of_timing ((Frame.standingOffer s).2 .timing (by decide))
  | expire => exact h.of_timing ((Frame.expireOld s).2 .timing (by decide))

end StartFields

theorem startFields_timingFrameStart {t : Tick} :
    StartFields (s.timing.startFrame c.period t) (s.timingFrameStart c t) :=
  StartFields.examineLock (s := (s.setNow t).setTiming _) ⟨rfl, rfl, rfl, rfl⟩

theorem startFields_frameStartAt {t : Tick} (settled : s.loader.settled = some c)
    (runs : s.timing.timer = some timer) :
    StartFields (s.timing.startFrame c.period t) (s.frameStartAt t order) := by
  unfold State.frameStartAt
  rw [settled, runs]
  exact frameParts_keep (fun _ _ _ _ h => h.framePart) ((loader_timingFrameStart t).symm ▸ settled)
    startFields_timingFrameStart

/-! #### The corrections (R80 to R87) -/

theorem jump_eq : s.jump c t0 epoch d timer =
    { s with
      timing :=
        { s.timing with
          timer := some { timer with next := t0 + BitVec.ofNat 32 c.period }, epoch := epoch,
          epochStep := if epoch = s.timing.epoch then s.timing.epochStep else bump s.timing.epochStep,
          lock := .acquiring, slip := 0, holdover := 0, timedMissed := 0, jumps := bump s.timing.jumps,
          estimate := some ⟨epoch, phaseError c.period d, .jump, c.period - d⟩ },
      notices := if .acquiring = s.timing.lock then s.notices else s.notices ||| 0x0004#16 } :=
  setLock_eq .acquiring

theorem confirmLock_eq : s.confirmLock c epoch d =
    { s with
      timing :=
        { s.timing.correctEpoch (epochFor epoch (matchK c.period d)) with
          lock := .locked, slip := 0, holdover := 0, timedMissed := 0,
          estimate := some ⟨epoch, phaseError c.period d, .lock, 0⟩ },
      notices := if .locked = s.timing.lock then s.notices else s.notices ||| 0x0004#16 } :=
  setLock_eq .locked

theorem timedBeat_trims (lock : s.timing.lock = .locked)
    (near : inWindow c (signedTicks (beatOrigin c arrival delay) timer.next) = true) :
    (s.timedBeat c epoch arrival delay timer).1 =
      s.trim c epoch (signedTicks (beatOrigin c arrival delay) timer.next) timer := by
  rw [timedBeat_locked lock]
  exact congrArg Prod.fst (if_pos near)

/-- The timer and the epoch that a trim leaves (R82, R83). -/
theorem trim_timing : (s.trim c epoch d timer).timing.timer =
      some { timer with next := timer.next + BitVec.ofInt 32 (trimBy c.slewLimit (phaseError c.period d)) } ∧
    (s.trim c epoch d timer).timing.epoch = epoch + BitVec.ofNat 16 (matchK c.period d) - 1 ∧
    (s.trim c epoch d timer).timing.frameCount = s.timing.frameCount := ⟨rfl, rfl, rfl⟩

/-- Settles O19: the correction by the lock state, and a frame start at once where a trim fires. -/
theorem timedBeatByLockState : Obligations.TimedBeatByLockState := by
  refine ⟨fun c epoch arrival delay timer s => ?_, fun e rest body order h arrival c timer s hb nine origin => ?_⟩
  · intro t0 d k err near u becomes follows trimBy jumps locks trims slips outcome
    have start : beatOrigin c arrival delay = t0 := beatOrigin_eq delay
    have jumped : s.jump c (beatOrigin c arrival delay) epoch (signedTicks (beatOrigin c arrival delay) timer.next)
        timer = jumps := by rw [start, jump_eq]; rfl
    have locked : s.confirmLock c epoch (signedTicks (beatOrigin c arrival delay) timer.next) = locks := by
      rw [start, confirmLock_eq]; rfl
    have window : inWindow c (signedTicks (beatOrigin c arrival delay) timer.next) = true ↔ near := by
      rw [start]
      exact inWindow_iff
    have unraised : s.notices = if u.lock = u.lock then s.notices else s.notices ||| 0x0004#16 := (if_pos rfl).symm
    refine ⟨fun lock => ?_, fun lock => ⟨fun is_near => ?_, fun is_far => ?_⟩,
      fun lock => ⟨fun is_near => ?_, fun is_far first => ?_, fun is_far again => ?_⟩⟩
    · rw [← jumped]
      exact congrArg Prod.fst (timedBeat_free lock)
    · rw [← locked]
      exact congrArg Prod.fst ((timedBeat_unlocked lock).trans (if_pos (window.2 is_near)))
    · rw [← jumped]
      exact congrArg Prod.fst ((timedBeat_unlocked lock).trans (if_neg fun k => is_far (window.1 k)))
    · refine (timedBeat_trims lock (window.2 is_near)).trans ?_
      rw [start]
      exact congrArg (State.setNotices (s.trim c epoch d timer)) unraised
    · refine (congrArg Prod.fst
        ((timedBeat_locked lock).trans ((if_neg fun k => is_far (window.1 k)).trans (if_pos first)))).trans ?_
      rw [start]
      exact congrArg (State.setNotices (s.slipOnce c epoch d)) unraised
    · rw [← jumped]
      exact congrArg Prod.fst
        ((timedBeat_locked lock).trans ((if_neg fun k => is_far (window.1 k)).trans (if_neg again)))
  · intro b beat period role unsaturated accepts runs d k err correction timed shows fires
    have start : beatOrigin c arrival h.delay = arrival - h.delay.setWidth 32 - BitVec.ofNat 32 c.segmentDelay :=
      beatOrigin_eq h.delay
    have fires_iff : (State.timedBeat c beat.epoch arrival h.delay timer (roleTook h beat b)).2 = true ↔ fires := by
      rw [timedBeat_fires_iff, start, inWindow_iff]
      exact and_congr_right fun _ => and_congr_right fun _ => decide_eq_true_iff
    have taken : exec (.ringPacketComplete e rest order) s =
        .next (shows.immediateFrameStart
          (State.timedBeat c beat.epoch arrival h.delay timer (roleTook h beat b)).2 order) := by
      rw [exec_ringPacketComplete_beat hb nine origin, takeBeat_of_accepted period role (accepts_iff.2 accepts),
        acceptBeat_eq, timingBeat_of_timed (s := roleTook h beat b) unsaturated runs]
      dsimp only
      rw [tookUp_timedBeat]
      rfl
    refine ⟨fun quiet => ?_, fun fired => ⟨shows.frameStartAt b.now order, ?_, rfl, ?_⟩⟩
    · rw [taken, Bool.eq_false_iff.2 fun k => quiet (fires_iff.1 k)]
      rfl
    · have now : b.now = timed.now := (Frame.timedBeat (roleTook h beat b) _ _ _ _ _).2 .now (by decide)
      rw [taken, fires_iff.2 fired, now]
      rfl
    · obtain ⟨lock, near, negative, reached⟩ := fired
      have trimmed : timed = (roleTook h beat b).trim c beat.epoch d timer := by
        have within : inWindow c (signedTicks (beatOrigin c arrival h.delay) timer.next) = true := by
          rw [start]
          exact inWindow_iff.2 near
        refine (timedBeat_trims (s := roleTook h beat b) lock within).trans ?_
        rw [start]
        rfl
      obtain ⟨next, corrected, counted⟩ := trim_timing (s := roleTook h beat b) (c := c) (epoch := beat.epoch) (d := d)
        (timer := timer)
      rw [← trimmed] at next corrected counted
      have settled : shows.loader.settled = some c := by
        have ⟨_, _, _, _, active, _⟩ := hb
        have loader : b.loader = timed.loader := (Frame.timedBeat (roleTook h beat b) _ _ _ _ _).2 .loader (by decide)
        exact (congrArg Loader.settled loader).symm.trans (settled_of_active active)
      obtain ⟨timer', epoch', count', -⟩ := startFields_frameStartAt (order := order) (t := b.now) settled next
      refine ⟨timer', epoch'.trans ?_, count'.trans (congrArg (· + 1) counted)⟩
      exact (congrArg (· + 1) corrected).trans (BitVec.sub_add_cancel _ _)

end Sys2Proof

/-! ### What leaves RING OUT (R113, R117 to R126) -/

namespace Sys2Proof

open Sys2Proof.Machine

variable {s : State} {x : Sending}

/-- The transmitter once its transmission has completed: the room of a forwarded packet is freed (R113, R117). -/
def freedOut (x : Sending) (r : RingTransmitter) : RingTransmitter :=
  { r with
    sending := none,
    occupancy :=
      match x.source with
      | .forwarded size => r.occupancy - size
      | .own _ => r.occupancy }

theorem sendDone_eq (sends : s.ringOut.sending = some x) :
    s.sendDone = ({ s with ringOut := freedOut x s.ringOut } : State).chooseOut := by
  obtain ⟨source, bytes⟩ := x
  unfold State.sendDone
  rw [sends]
  cases source <;> rfl

/-- Settles O20: the head of the forward queue departs. -/
theorem forwardedPacketDeparts : Obligations.ForwardedPacketDeparts := by
  intro e x p rest s running sends queued b sum isBeat
  have queued' : (freedOut x b.ringOut).queue = p :: rest := queued
  rw [exec_ringTransmissionComplete running, sendDone_eq sends]
  refine congrArg _ ?_
  have departs : ({ b with ringOut := freedOut x b.ringOut } : State).chooseOut =
      ({ b with ringOut := freedOut x b.ringOut } : State).departForwarded p rest := by
    simp only [State.chooseOut, queued']
    rfl
  refine departs.trans ((departForwarded_eq ..).trans ?_)
  obtain ⟨source, bytes⟩ := x
  cases source <;> rfl

/-! #### The departure of the STANDING (R47, R53) -/

theorem agedOut_eq (es : List Entry) : agedOut es = es.countP fun y => decide (3 ≤ y.silence) := rfl

/-- The STANDING ages the roster as it departs, and an entry aged out changes it. -/
theorem ownStandingDeparts_eq (q : Byte) : s.ownStandingDeparts q =
    { s with
      roster :=
        { s.roster with
          entries :=
            (s.roster.entries.filter (fun y => decide (y.silence < 3))).map
              (fun y => { y with silence := y.silence + 1 }),
          entriesAged := bumpBy (s.roster.entries.countP (fun y => decide (3 ≤ y.silence))) s.roster.entriesAged,
          ownSequence := q },
      notices := if ∃ y ∈ s.roster.entries, 3 ≤ y.silence then s.notices ||| 0x0001#16 else s.notices } := by
  have some_aged : 0 < agedOut s.roster.entries ↔ ∃ y ∈ s.roster.entries, 3 ≤ y.silence := by
    simp [agedOut_eq, List.countP_pos_iff]
  unfold State.ownStandingDeparts
  by_cases aged : ∃ y ∈ s.roster.entries, 3 ≤ y.silence
  · rw [if_pos aged]
    exact (if_pos (some_aged.2 aged)).trans rfl
  · rw [if_neg aged]
    exact (if_neg fun k => aged (some_aged.1 k)).trans rfl

/-- Settles O21: the places in the order LEAVE, BEAT, STANDING. -/
theorem localPlacesAreServed : Obligations.LocalPlacesAreServed := by
  intro e x c s running settled sends empty b freed
  let done : State := { b with ringOut := freed }
  have chosen : exec (.ringTransmissionComplete e) s = .next done.chooseOut := by
    rw [exec_ringTransmissionComplete running, sendDone_eq sends]
    obtain ⟨source, bytes⟩ := x
    cases source <;> rfl
  rw [chosen]
  refine ⟨fun leave => ?_, fun beat leave composed => ?_, fun leave none standing => ?_,
    fun leave none standing => ?_⟩
  · exact congrArg _ (chooseOut_leave (s := done) rfl empty settled leave)
  · exact congrArg _ (chooseOut_beat (s := done) rfl empty settled leave composed)
  · exact congrArg _ ((chooseOut_standing (s := done) rfl empty settled leave none standing).trans
      (ownStandingDeparts_eq _))
  · exact congrArg _ (chooseOut_idle (s := done) rfl empty leave none standing)

end Sys2Proof

/-! ### Source link reception (R131 to R141, R190) -/

namespace Sys2Proof

open Sys2Proof.Machine

variable {s : State} {e : Elapsed} {rest body : List Byte} {h : LinkHeader} {p : LinkRxPacket}

/-! #### Signal -/

theorem linkLoss_of_taken (up : s.loader.station ≠ .configuring) (receives : s.link.state ≠ .down) :
    s.linkLoss =
      ({ s with
        link :=
          { s.link with signal := false, state := .down, packet := none, signalLost := bump s.link.signalLost },
        notices := s.notices ||| 0x0020#16 } : State).assemblerLoss := by
  refine if_neg ?_
  simp [State.linkHeld, up, receives]

theorem linkLoss_of_untaken (untaken : s.loader.station = .configuring ∨ s.link.state = .down) :
    s.linkLoss = { s with link := { s.link with signal := false } } := by
  refine if_pos ?_
  simpa [State.linkHeld] using untaken

theorem linkSignal_eq : s.linkSignal =
    { s with
      link :=
        { s.link with
          signal := true,
          state := if s.loader.station ≠ .configuring ∧ s.link.state = .down then .hunt else s.link.state } } := by
  unfold State.linkSignal
  by_cases configuring : s.loader.station = .configuring
  · have unmoved : (if s.loader.station ≠ .configuring ∧ s.link.state = .down then LinkRxState.hunt else s.link.state) =
        s.link.state := if_neg fun k => k.1 configuring
    rw [unmoved]
    exact if_pos (by simp [State.linkHeld, configuring])
  · refine (if_neg (by simp [State.linkHeld, configuring])).trans ?_
    by_cases down : s.link.state = .down
    · rw [if_pos (show s.loader.station ≠ .configuring ∧ s.link.state = .down from ⟨configuring, down⟩)]
      exact if_pos down
    · rw [if_neg (show ¬ (s.loader.station ≠ .configuring ∧ s.link.state = .down) from fun k => down k.2)]
      exact if_neg down

/-- The loss of signal ends a frame in hand (R157). -/
theorem assemblerLoss_eq (slot : s.ingest.state = .inFrame → s.ingest.slot.isSome = true) :
    s.assemblerLoss =
      if s.ingest.state = .discarding then { s with ingest := frameLeft s.ingest } else endedEarly s := by
  unfold State.assemblerLoss
  cases state : s.ingest.state with
  | noFrame => simp [endedEarly, state]
  | discarding => rfl
  | inFrame => exact endInProgress_eq slot

/-- Settles O31: by whether the receiver takes the event, and by what the Frame Assembler has in hand. -/
theorem linkSignal : Obligations.LinkSignal := by
  refine ⟨fun e s running up receives slot => ?_, fun e s running untaken => ?_, fun e s running => ?_⟩
  · rw [exec_linkLossOfSignal running, linkLoss_of_taken up receives]
    exact congrArg _ (assemblerLoss_eq slot)
  · rw [exec_linkLossOfSignal running, linkLoss_of_untaken untaken]
  · rw [exec_linkSignalPresent running, linkSignal_eq]

/-! #### Framing -/

theorem ofCode_eq_filler {code : Byte} : LinkKind.ofCode code = some .filler ↔ code = 0x13#8 := by
  by_cases filler : code = 0x13#8
  · subst filler
    exact iff_of_true rfl rfl
  · refine iff_of_false (fun same => ?_) filler
    unfold LinkKind.ofCode at same
    split_ifs at same <;> simp_all

theorem filler_iff : p.filler = true ↔ ∃ h, p.header = some h ∧ h.kind = 0x13#8 := by
  unfold LinkRxPacket.filler
  cases p.header with
  | none => simp
  | some h => simp [ofCode_eq_filler]

/-- A packet whose early end is counted (R134). -/
def CutCounts (s : State) : Prop :=
  ∃ p, s.link.packet = some p ∧ (s.link.state = .skip → ∃ h, p.header = some h ∧ h.kind = 0x13#8)

theorem linkCut_of_counts (counts : CutCounts s) : s.linkCut =
    { s with
      link := { s.link with state := .hunt, packet := none, truncated := bump s.link.truncated },
      notices := s.notices ||| 0x0020#16 } := by
  obtain ⟨p, receiving, skips⟩ := counts
  unfold State.linkCut
  rw [receiving]
  refine if_neg fun ⟨skip, other⟩ => ?_
  rw [filler_iff.2 (skips skip)] at other
  exact nomatch other

theorem linkCut_of_uncounted (uncounted : ¬ CutCounts s) : s.linkCut =
    if s.link.packet.isSome then { s with link := { s.link with state := .hunt, packet := none } } else s := by
  unfold State.linkCut
  cases receiving : s.link.packet with
  | none => rfl
  | some p =>
    refine if_pos ?_
    by_contra counted
    refine uncounted ⟨p, receiving, fun skip => filler_iff.1 ?_⟩
    simpa [skip] using counted

theorem linkMarker_of_up (up : s.link.state ≠ .down) :
    s.linkMarker = s.linkCut.setLink s.linkCut.link.begin := if_neg up

/-! #### Symbols -/

theorem linkReceives_serialBits (code : BitVec 2) (bits : Byte) :
    s.linkReceives (serialBits code bits) = s.linkSymbol (takeSymbol code bits) := by
  rw [State.linkReceives, receiveSerial_serialBits]

section Receiving

variable (b : Byte) (receiving : s.link.packet = some p)
include receiving

theorem linkData_of_eighth (header : p.header = none) (last : p.taken.length = 7) :
    s.linkData b = s.linkEighthByte [b] := by
  simp [State.linkData, receiving, header, last]

theorem linkData_of_collected (header : p.header = none) (short : p.taken.length < 7) :
    s.linkData b = { s with link := { s.link with packet := some { p with taken := p.taken ++ [b] } } } := by
  have one : [b].take (7 - p.taken.length) = [b] := List.take_of_length_le (by simp; omega)
  simp only [State.linkData, receiving, header, short, if_true, LinkReceiver.collect, roomFor, one]
  rfl

theorem linkData_of_line (header : p.header = some h) (last : p.remaining ≤ 1) (payload : s.link.state = .payload) :
    s.linkData b = s.lineLastByte [b] := by
  simp [State.linkData, receiving, header, Nat.not_lt.2 last, payload]

theorem linkData_of_skip (header : p.header = some h) (last : p.remaining ≤ 1) (skip : s.link.state = .skip) :
    s.linkData b = s.skipLast := by
  simp [State.linkData, receiving, header, Nat.not_lt.2 last, skip]

theorem linkData_of_counted (header : p.header = some h) (more : 1 < p.remaining) : s.linkData b =
    { s with
      link :=
        { s.link with
          packet := some
            { p with
              taken := if s.link.state = .payload then p.taken ++ [b] else p.taken,
              remaining := p.remaining - 1 } } } := by
  have one : [b].take (p.remaining - 1) = [b] := List.take_of_length_le (by simp; omega)
  simp only [State.linkData, receiving, header, more, if_true, LinkReceiver.collect, one]
  split <;> rfl

end Receiving

/-- Settles O32: framing by what is cut, ten bits by the symbol that they are taken as. -/
theorem linkFraming : Obligations.LinkFraming := by
  refine ⟨fun e s running => ?_, fun e code bits s running => ?_⟩
  · intro b counts
    rw [exec_linkStartMarker running, exec_linkFill running]
    refine ⟨fun up => ⟨fun counted => ?_, fun uncounted => ?_⟩, fun counted => ?_, fun uncounted => ?_⟩
    · rw [linkMarker_of_up up, linkCut_of_counts counted]
      rfl
    · rw [linkMarker_of_up up, linkCut_of_uncounted uncounted]
      cases b.link.packet <;> rfl
    · rw [linkCut_of_counts counted]
    · rw [linkCut_of_uncounted uncounted]
  · intro b t
    have taken : t = b.linkSymbol (takeSymbol code bits) := linkReceives_serialBits code bits
    rw [taken]
    refine ⟨fun marker => ?_, fun fill => ?_, fun x data => ?_⟩
    · rw [marker, exec_linkStartMarker running]
      rfl
    · rw [fill, exec_linkFill running]
      rfl
    · rw [data]
      refine ⟨fun idle => ?_, fun p receiving => ⟨fun header last => ?_,
        fun header short => linkData_of_collected x receiving header short, fun h header =>
          ⟨fun last payload => ?_, fun last skip => ?_, fun more => linkData_of_counted x receiving header more⟩⟩⟩
      · simp [State.linkSymbol, State.linkData, idle]
      · rw [exec_linkHeaderTaken running]
        exact congrArg _ (linkData_of_eighth x receiving header last).symm
      · rw [exec_line running]
        exact congrArg _ (linkData_of_line x receiving header last payload).symm
      · rw [exec_skipLastByte running]
        exact congrArg _ (linkData_of_skip x receiving header last skip).symm

/-! #### FILLER, LINE and the skip -/

theorem linkFate_of_filler (short : h.length.toNat ≤ 8192) (kind : h.kind = 0x13#8) : linkFate h = .filler := by
  have listed : LinkKind.ofCode h.kind = some .filler := ofCode_eq_filler.2 kind
  simp [linkFate, Config.maxLinkLength, short.not_gt, listed]

theorem linkFate_of_line (payload : 1 ≤ h.length.toNat) (short : h.length.toNat ≤ 8192) (kind : h.kind = 0x11#8) :
    linkFate h = .linePayload := by
  have listed : LinkKind.ofCode h.kind = some .line := by rw [kind]; rfl
  have some_payload : h.length ≠ 0 := by
    intro none
    rw [none] at payload
    exact absurd payload (by decide)
  simpa [linkFate, Config.maxLinkLength, short.not_gt, listed] using some_payload

theorem skipLast_of_skip (skip : s.link.state = .skip) (receiving : s.link.packet = some p)
    (header : p.header = some h) : s.skipLast =
      { s with
        link :=
          { s.link with
            state := .hunt, packet := none,
            packetsTaken := if h.kind = 0x13#8 then bump s.link.packetsTaken else s.link.packetsTaken } } := by
  have filler : p.filler = true ↔ h.kind = 0x13#8 := by simp [filler_iff, header]
  simp only [State.skipLast, skip, receiving, filler]
  split <;> rfl

/-- Settles O34: by what becomes of the header, and by the end of the skip and of the LINE. -/
theorem fillerLineAndSkip : Obligations.FillerLineAndSkip := by
  refine ⟨⟨fun e rest fixed h s hh kind short => ?_, fun e p h s running skip receiving header => ?_⟩,
    fun e rest fixed h s hh kind payload short => ?_, fun e rest p h s running payload receiving header whole bad => ?_⟩
  · rw [exec_filler hh.1, linkEighthByte_of_headerIn hh, State.linkHeaderGood, linkFate_of_filler short kind]
    by_cases empty : h.length = 0
    · simp only [empty, if_true]
      rfl
    · simp only [LinkReceiver.skip, empty, if_false]
      rfl
  · rw [exec_skipLastByte running, skipLast_of_skip skip receiving header]
  · rw [exec_linkHeaderTaken hh.1, linkEighthByte_of_headerIn hh, State.linkHeaderGood,
      linkFate_of_line payload short kind]
    rfl
  · rw [exec_line running, lineLastByte_of_lineIn ⟨running, payload, p, receiving, header, rfl, whole⟩, State.lineTaken,
      bad]
    rfl

/-! #### Packets without a configuration -/

/-- A packet complete at its header. -/
theorem linkEighthByte_of_complete {fixed : Bool} {k : LinkKind} (hh : LinkHeaderIn e rest fixed h s)
    (listed : LinkKind.ofCode h.kind = some k) (empty : h.length = 0) (line : k ≠ .line) (filler : k ≠ .filler) :
    (s.elapse e).linkEighthByte rest =
      ({ linkBase e fixed s with link := linkTaken (linkBase e fixed s).link } : State).routePacket k h := by
  rw [linkEighthByte_of_headerIn hh, State.linkHeaderGood, linkFate_complete listed empty line filler]
  rfl

theorem ifConfigured_of_none {hand : Settings → State → State} (quiet : s.active = none) :
    s.ifConfigured hand = s.notConfigured := by
  rw [State.ifConfigured, quiet]

theorem ifConfigured_of_some {hand : Settings → State → State} {c : Settings} (active : s.active = some c) :
    s.ifConfigured hand = hand c s := by
  rw [State.ifConfigured, active]

theorem active_linkBase {fixed : Bool} {r : LinkReceiver} :
    ({ linkBase e fixed s with link := r } : State).active = s.active := by
  have same : s.active = (s.elapse e).active := elapse_active.symm
  rw [same]
  cases fixed <;> rfl

theorem active_of_configFault (fault : s.loader.station = .configFault) : s.active = none := by
  rw [State.active, fault]

/-- Settles O35: the packet completes, and no configuration takes it. -/
theorem configFaultDropsPackets : Obligations.ConfigFaultDropsPackets := by
  refine ⟨fun e rest fixed h s hh fault empty => ?_, fun e rest body h s hb fault good => ?_⟩
  · intro b dropped
    have quiet : ({ b with link := linkTaken b.link } : State).active = none :=
      active_linkBase.trans (active_of_configFault fault)
    refine ⟨fun kind => ?_, fun kind => ?_, fun kind => ?_, fun kind => ?_⟩
    · rw [exec_frameBegin hh.1, linkEighthByte_of_complete hh (k := .frameBegin) (by rw [kind]; rfl) empty nofun nofun]
      exact congrArg _ (ifConfigured_of_none quiet)
    · rw [exec_frameEnd hh.1, linkEighthByte_of_complete hh (k := .frameEnd) (by rw [kind]; rfl) empty nofun nofun]
      exact congrArg _ (ifConfigured_of_none quiet)
    · rw [exec_withdraw hh.1, linkEighthByte_of_complete hh (k := .withdraw) (by rw [kind]; rfl) empty nofun nofun]
      exact congrArg _ (ifConfigured_of_none quiet)
    · rw [exec_rejoin hh.1, linkEighthByte_of_complete hh (k := .rejoin) (by rw [kind]; rfl) empty nofun nofun]
      exact congrArg _ (ifConfigured_of_none quiet)
  · have quiet : ((s.elapse e).setLink (s.elapse e).link.complete).active = none :=
      elapse_active.trans (active_of_configFault fault)
    rw [exec_line hb.1, lineLastByte_of_lineIn hb, State.lineTaken, if_pos good, ifConfigured_of_none quiet]
    rfl

end Sys2Proof

/-! ### The slots: eviction, claim, close (R6 to R13) -/

namespace Sys2Proof

open Sys2Proof.Machine

variable {m : SlotManager} {pin : Option FrameNo} {n f : FrameNo} {i k : Nat} {r : Slot}

/-! #### Eviction (R6, R7, R13) -/

theorem completeIndex_eq_of_first (hk : m.table[k]? = some r) (done : r.state = .complete) (frame : r.frame = some f)
    (first : ∀ (j : Nat) (q : Slot), j < k → m.table[j]? = some q → ¬ (q.state = .complete ∧ q.frame = some f)) :
    m.completeIndex f = some k := by
  obtain ⟨inside, rfl⟩ := List.getElem?_eq_some_iff.1 hk
  refine List.findIdx?_eq_some_iff_getElem.2 ⟨inside, by simp [done, frame], fun j before => ?_⟩
  simpa using first j _ before (List.getElem?_eq_getElem (before.trans inside))

/-- The oldest unpinned frame is the head, or the second behind a pinned head. -/
theorem oldestUnpinned_eq {complete : List FrameNo} (unpinned : pin ≠ some f)
    (place : complete.head? = some f ∨ (complete.head? = pin ∧ complete[1]? = some f)) :
    oldestUnpinned pin complete = some f := by
  cases complete with
  | nil => exact place.elim nofun fun second => nomatch second.2
  | cons g rest =>
    rcases place with head | ⟨pinned, second⟩
    · cases head
      exact List.find?_cons_of_pos (by simpa using unpinned)
    · have skips : ¬ decide (pin ≠ some g) = true := by simpa using pinned.symm
      refine (List.find?_cons_of_neg (p := fun f => decide (pin ≠ some f)) skips).trans ?_
      cases rest with
      | nil => exact nomatch second
      | cons g' rest =>
        cases second
        exact List.find?_cons_of_pos (by simpa using unpinned)

theorem evict_of_oldest (oldest : OldestUnpinned pin m f k) : m.evict pin = some (k, evictedAt f k m) := by
  obtain ⟨unpinned, place, ⟨r, hk, done, frame⟩, first⟩ := oldest
  unfold SlotManager.evict
  rw [oldestUnpinned_eq unpinned place]
  dsimp only
  rw [completeIndex_eq_of_first hk done frame first]
  rfl

/-! #### Claiming (R7, R8) -/

theorem findFree_of_none (none_free : ∀ r ∈ m.table, r.state ≠ .free) :
    m.table.findIdx? (fun r => r.state == .free) = none := by
  simpa [List.findIdx?_eq_none_iff] using none_free

theorem claim_of_free (hi : m.table[i]? = some r) (free : r.state = .free)
    (first : ∀ (j : Nat) (q : Slot), j < i → m.table[j]? = some q → q.state ≠ .free) :
    m.claim n pin = some (i, { m with table := m.table.set i ⟨.filling, some n, [], 0, false⟩ }) := by
  have found : m.table.findIdx? (fun r => r.state == .free) = some i := by
    obtain ⟨inside, rfl⟩ := List.getElem?_eq_some_iff.1 hi
    refine List.findIdx?_eq_some_iff_getElem.2 ⟨inside, by simp [free], fun j before => ?_⟩
    simpa using first j _ before (List.getElem?_eq_getElem (before.trans inside))
  unfold SlotManager.claim
  rw [found]
  rfl

theorem claim_of_pinned (none_free : ∀ r ∈ m.table, r.state ≠ .free) (pinned : ∀ f ∈ m.complete, pin = some f) :
    m.claim n pin = none := by
  have none_oldest : oldestUnpinned pin m.complete = none := by
    simpa [oldestUnpinned] using pinned
  unfold SlotManager.claim
  rw [findFree_of_none none_free]
  simp only [SlotManager.evict, none_oldest]

theorem claim_of_oldest (none_free : ∀ r ∈ m.table, r.state ≠ .free) (oldest : OldestUnpinned pin m f i) :
    m.claim n pin = some
      (i,
        { m with
          table := m.table.set i ⟨.filling, some n, [], 0, false⟩, complete := m.complete.erase f,
          evicted := bump m.evicted }) := by
  unfold SlotManager.claim
  rw [findFree_of_none none_free, evict_of_oldest oldest]
  simp only [evictedAt, List.set_set]
  rfl

/-- Settles O37: by whether a slot is free, and by the oldest unpinned frame. -/
theorem claimTakesLowestFreeSlot : Obligations.ClaimTakesLowestFreeSlot := by
  refine fun n pin m => ⟨fun i r hi free first => claim_of_free hi free first, claim_of_pinned,
    fun f i r none_free _ unpinned place hi done frame first =>
      claim_of_oldest none_free ⟨unpinned, place, ⟨r, hi, done, frame⟩, first⟩⟩

/-! #### Completion (R10, R12, R13) -/

theorem completionCheck_of_room {j : Nat} {q : Slot} (hj : m.table[j]? = some q) (other : q.state ≠ .complete) :
    m.completionCheck pin = m := by
  refine if_neg fun full => other ?_
  simpa using List.all_eq_true.1 full q (List.mem_of_getElem? hj)

theorem completionCheck_of_full (full : ∀ r ∈ m.table, r.state = .complete) (oldest : OldestUnpinned pin m f k) :
    m.completionCheck pin = evictedAt f k m := by
  have all : m.table.all (fun r => r.state == .complete) = true := by simpa using full
  rw [SlotManager.completionCheck, if_pos all, evict_of_oldest oldest]

/-- A slot that becomes COMPLETE beside one that is not. -/
theorem completed_of_room {j : Nat} {q : Slot} (apart : j ≠ i) (hj : m.table[j]? = some q) (other : q.state ≠ .complete) :
    (m.becomeComplete i r).completionCheck pin = m.becomeComplete i r := by
  refine completionCheck_of_room (j := j) (q := q) ?_ other
  rw [← hj]
  exact List.getElem?_set_ne apart.symm

/-- A slot that becomes COMPLETE as the last one. -/
theorem completed_of_full (others : ∀ (j : Nat) (q : Slot), j ≠ i → m.table[j]? = some q → q.state = .complete)
    (oldest : OldestUnpinned pin (m.becomeComplete i r) f k) :
    (m.becomeComplete i r).completionCheck pin = evictedAt f k (m.becomeComplete i r) := by
  refine completionCheck_of_full (fun q hq => ?_) oldest
  obtain ⟨j, hj⟩ := List.mem_iff_getElem?.1 hq
  have hj : (m.table.set i { r with state := .complete, pending := 0 })[j]? = some q := hj
  rw [List.getElem?_set] at hj
  split at hj
  · split at hj
    · cases hj
      rfl
    · exact nomatch hj
  · next apart => exact others j q (Ne.symm apart) hj

end Sys2Proof

/-! ### FRAME_BEGIN and FRAME_END (R146 to R148, R156) -/

namespace Sys2Proof

open Sys2Proof.Machine

variable {s : State} {e : Elapsed} {rest : List Byte} {fixed : Bool} {h : LinkHeader} {c : Settings} {n : FrameNo}
  {i : Nat} {r : Slot}

theorem abandoned_eq (writing : Bool) (r : Slot) : r.abandoned writing = abandonedRecord writing r := by
  cases writing <;> rfl

/-! #### FRAME_BEGIN -/

/-- The receiver takes no part in the end of a frame. -/
theorem endedEarly_link (l : LinkReceiver) : endedEarly { s with link := l } = { endedEarly s with link := l } := by
  unfold endedEarly
  dsimp only
  split <;> rfl

theorem link_endedEarly : (endedEarly s).link = s.link := by
  unfold endedEarly
  split <;> rfl

section FrameBegin

variable (slot : s.ingest.state = .inFrame → s.ingest.slot.isSome = true)
include slot

theorem takeFrameBegin_of_stale (stale : (endedEarly s).staleFrame n = true) : s.takeFrameBegin n =
    (endedEarly s).ingestError
      { (endedEarly s).ingest.leaveFrame .discarding (some n) with
        staleFrame := bump (endedEarly s).ingest.staleFrame } := by
  rw [State.takeFrameBegin, endInProgress_eq slot]
  exact if_pos stale

theorem takeFrameBegin_of_refused (fresh : ¬ (endedEarly s).staleFrame n = true)
    (refused : (endedEarly s).slots.claim n (endedEarly s).pin = none) : s.takeFrameBegin n =
    (endedEarly s).ingestError
      { (endedEarly s).ingest.leaveFrame .discarding (some n) with
        noSlotDrop := bump (endedEarly s).ingest.noSlotDrop } := by
  rw [State.takeFrameBegin, endInProgress_eq slot]
  refine (if_neg fresh).trans ?_
  rw [refused]

theorem takeFrameBegin_of_claimed {m : SlotManager} (fresh : ¬ (endedEarly s).staleFrame n = true)
    (claimed : (endedEarly s).slots.claim n (endedEarly s).pin = some (i, m)) : s.takeFrameBegin n =
    ((endedEarly s).setSlots m).setIngest
      { (endedEarly s).ingest.leaveFrame .inFrame (some n) with
        slot := some i, framesBegun := bump (endedEarly s).ingest.framesBegun } := by
  rw [State.takeFrameBegin, endInProgress_eq slot]
  refine (if_neg fresh).trans ?_
  rw [claimed]

end FrameBegin

/-- The assembler when a header of the source link is examined. -/
theorem ingest_linkBase : (linkBase e fixed s).ingest = (s.elapse e).ingest := by
  cases fixed <;> rfl

/-- Settles O36: the frame in progress ends first, then the stale check and the claim decide. -/
theorem frameBeginClaims : Obligations.FrameBeginClaims := by
  intro e rest fixed h c s hh kind empty active slot b taken stale refused
  have active' : ({ linkBase e fixed s with link := linkTaken (linkBase e fixed s).link } : State).active = some c :=
    active_linkBase.trans (elapse_active.symm.trans active)
  let u : State := { linkBase e fixed s with link := linkTaken (linkBase e fixed s).link }
  have ended : endedEarly u = taken := by
    rw [endedEarly_link, ← link_endedEarly]
  have slot' : u.ingest.state = .inFrame → u.ingest.slot.isSome = true := by
    simpa only [← ingest_linkBase (fixed := fixed)] using slot
  have stale_iff : (endedEarly u).staleFrame h.a = true ↔ stale := by
    rw [ended]
    exact staleFrame_iff
  have begun : exec (.frameBegin e rest) s = .next (u.takeFrameBegin h.a) := by
    rw [exec_frameBegin hh.1, linkEighthByte_of_complete hh (k := .frameBegin) (by rw [kind]; rfl) empty nofun nofun]
    exact congrArg _ (ifConfigured_of_some active')
  rw [begun]
  refine ⟨fun is_stale => ?_, fun fresh none => ?_, fun i m fresh claimed => ?_⟩
  · rw [takeFrameBegin_of_stale slot' (stale_iff.2 is_stale), ended]
    rfl
  · rw [takeFrameBegin_of_refused slot' (fun k => fresh (stale_iff.1 k)) (by rw [ended]; exact none), ended]
    rfl
  · rw [takeFrameBegin_of_claimed slot' (fun k => fresh (stale_iff.1 k)) (by rw [ended]; exact claimed), ended]
    rfl

/-! #### FRAME_END -/

theorem damaged_eq (hi : s.slots.table[i]? = some r) : s.slots.damaged i = r.damaged := by
  rw [SlotManager.damaged, hi]

theorem closesGood_iff (hi : s.slots.table[i]? = some r) : s.closesGood c i = true ↔
    r.damaged = false ∧ s.ingest.accounted = List.range c.h := by
  simp [State.closesGood, damaged_eq hi]

theorem closeFrame_of_good (good : s.closesGood c i = true) : s.closeFrame c i =
    { s with slots := s.slots.closeGood s.pin i, ingest := frameLeft s.ingest } := if_pos good

/-- A frame that is not whole is abandoned and counted. -/
theorem closeFrame_of_bad (hi : s.slots.table[i]? = some r) (bad : ¬ s.closesGood c i = true) : s.closeFrame c i =
    { s with
      ingest :=
        { frameLeft s.ingest with
          queue := s.ingest.queue.filter (fun w => w.slot != i), incompleteFrame := bump s.ingest.incompleteFrame },
      slots := { s.slots with table := s.slots.table.set i (abandonedRecord (s.writing i) r) },
      notices := s.notices ||| 0x0040#16 } := by
  rw [← abandoned_eq, ← modify_eq_set _ hi]
  exact if_neg bad

theorem becomeComplete_of_done {m : SlotManager} (done : r.pending = 0) : m.becomeComplete i r =
    { m with
      table := m.table.set i { r with state := .complete }, complete := m.complete ++ r.frame.toList,
      framesCompleted := bump m.framesCompleted } := by
  unfold SlotManager.becomeComplete
  rw [← done]

theorem abandonLine_eq (slot : s.ingest.slot = some i) : s.abandonLine =
    { s with
      ingest := { s.ingest with openLine := none, buffer := [], lineAbandoned := bump s.ingest.lineAbandoned },
      slots := damagedAt i s.slots, notices := s.notices ||| 0x0040#16 } := by
  unfold State.abandonLine State.damageCurrent
  have slot' : (s.ingestError { s.ingest with
      openLine := none, buffer := [], lineAbandoned := bump s.ingest.lineAbandoned }).ingest.slot = some i := slot
  rw [slot']
  rfl

theorem notice_twice (x y : BitVec 16) : x ||| y ||| y = x ||| y := by rw [BitVec.or_assoc, BitVec.or_self]

/-- The close behind an open line, which is abandoned and leaves the slot DAMAGED. -/
theorem closeFrame_abandonLine (slot : s.ingest.slot = some i) (hi : s.slots.table[i]? = some r) :
    s.abandonLine.closeFrame c i =
      { s with
        ingest :=
          { frameLeft s.ingest with
            queue := s.ingest.queue.filter (fun w => w.slot != i), lineAbandoned := bump s.ingest.lineAbandoned,
            incompleteFrame := bump s.ingest.incompleteFrame },
        slots :=
          { s.slots with
            table := s.slots.table.set i (abandonedRecord (s.writing i) { r with damaged := true }) },
        notices := s.notices ||| 0x0040#16 } := by
  have hi' : s.abandonLine.slots.table[i]? = some { r with damaged := true } := by
    rw [abandonLine_eq slot]
    exact (List.getElem?_modify_eq ..).trans (congrArg _ hi)
  have table (x : Slot) : (damagedAt i s.slots).table.set i x = s.slots.table.set i x := by
    rw [damagedAt, modify_eq_set _ hi, List.set_set]
  have closed := closeFrame_of_bad (c := c) hi' fun k => nomatch ((closesGood_iff hi').1 k).1
  rw [abandonLine_eq slot] at closed ⊢
  rw [closed, ← table]
  conv_rhs => rw [← notice_twice]
  rfl

section FrameEnd

variable (fills : s.ingest.state = .inFrame)
include fills

theorem takeFrameEnd_of_own (own : s.ingest.frame = some n) (slot : s.ingest.slot = some i)
    (whole : s.ingest.openLine = none) : s.takeFrameEnd c n = s.closeFrame c i := by
  simp [State.takeFrameEnd, fills, own, slot, whole]

theorem takeFrameEnd_of_open (own : s.ingest.frame = some n) (slot : s.ingest.slot = some i)
    (cut : s.ingest.openLine ≠ none) : s.takeFrameEnd c n = s.abandonLine.closeFrame c i := by
  have is_open : s.ingest.openLine.isSome = true := Option.isSome_iff_ne_none.2 cut
  have slot' : s.abandonLine.ingest.slot = some i := by rw [abandonLine_eq slot]; exact slot
  simp [State.takeFrameEnd, fills, own, is_open, slot']

/-- A FRAME_END of another number abandons the frame in progress. -/
theorem takeFrameEnd_of_other (other : s.ingest.frame ≠ some n) (slot : s.ingest.slot = some i)
    (hi : s.slots.table[i]? = some r) : s.takeFrameEnd c n =
      { s with
        ingest :=
          { frameLeft s.ingest with
            queue := s.ingest.queue.filter (fun w => w.slot != i), frameMismatch := bump s.ingest.frameMismatch },
        slots := { s.slots with table := s.slots.table.set i (abandonedRecord (s.writing i) r) },
        notices := s.notices ||| 0x0040#16 } := by
  rw [← abandoned_eq, ← modify_eq_set _ hi]
  simp only [State.takeFrameEnd, fills, if_neg other, State.abandonCurrent, slot]
  rfl

end FrameEnd

/-- Settles O40: by the frame in hand, its open line, and the verdict of the close. -/
theorem frameEndCloses : Obligations.FrameEndCloses := by
  intro e rest fixed h c s hh kind empty active b taken left mismatched
  have active' : taken.active = some c := active_linkBase.trans (elapse_active.symm.trans active)
  have ended : exec (.frameEnd e rest) s = .next (taken.takeFrameEnd c h.a) := by
    rw [exec_frameEnd hh.1, linkEighthByte_of_complete hh (k := .frameEnd) (by rw [kind]; rfl) empty nofun nofun]
    exact congrArg _ (ifConfigured_of_some active')
  rw [ended]
  refine ⟨fun i r fills own slot hi => ?_, fun i r fills other slot hi => ?_, fun none => ?_, fun drops own => ?_,
    fun drops other => ?_⟩
  · intro done good
    have verdict : taken.closesGood c i = true ↔ r.damaged = false ∧ b.ingest.accounted = List.range c.h :=
      closesGood_iff (s := taken) hi
    have closes (k : good) : taken.takeFrameEnd c h.a =
        { taken with slots := taken.slots.closeGood taken.pin i, ingest := left } :=
      (takeFrameEnd_of_own (s := taken) fills own slot k.1).trans (closeFrame_of_good (s := taken) (verdict.2 k.2))
    have completes (k : good) (last : r.pending = 0) : taken.takeFrameEnd c h.a =
        { taken with slots := (taken.slots.becomeComplete i r).completionCheck taken.pin, ingest := left } := by
      rw [closes k, closeGood_of_done (m := taken.slots) hi last]
    have become (last : r.pending = 0) : taken.slots.becomeComplete i r = done := becomeComplete_of_done last
    refine ⟨fun k waits => ?_, fun k last ⟨j, q, apart, hj, other⟩ => ?_, fun f k is_good last others oldest => ?_,
      fun bad => ?_⟩
    · rw [closes k, closeGood_of_waiting (m := taken.slots) hi waits]
    · rw [completes k last, completed_of_room (m := taken.slots) apart hj other, become last]
    · have oldest' : OldestUnpinned taken.pin (taken.slots.becomeComplete i r) f k := by
        rw [become last]
        exact oldest
      rw [completes is_good last, completed_of_full (m := taken.slots) others oldest', become last]
    · by_cases whole : b.ingest.openLine = none
      · have verdict' : ¬ taken.closesGood c i = true := fun k => bad ⟨whole, verdict.1 k⟩
        rw [takeFrameEnd_of_own (s := taken) fills own slot whole, closeFrame_of_bad (s := taken) hi verdict',
          if_pos whole, if_pos whole]
        rfl
      · rw [takeFrameEnd_of_open (s := taken) fills own slot whole, closeFrame_abandonLine (s := taken) slot hi]
        simp only [if_neg whole]
        rfl
  · exact congrArg _ (takeFrameEnd_of_other (s := taken) fills other slot hi)
  · have idle : taken.ingest.state = .noFrame := none
    simp only [State.takeFrameEnd, idle]
    rfl
  · have idle : taken.ingest.state = .discarding := drops
    simp only [State.takeFrameEnd, idle]
    exact congrArg _ (if_pos own)
  · have idle : taken.ingest.state = .discarding := drops
    simp only [State.takeFrameEnd, idle]
    exact congrArg _ (if_neg other)

end Sys2Proof

/-! ### LINE (R149 to R154) -/

namespace Sys2Proof

open Sys2Proof.Machine

variable {s : State} {e : Elapsed} {rest body payload : List Byte} {h : LinkHeader} {c : Settings}
  {i line first : Nat} {pixels before : List Pixel} {l : LinkReceiver}

/-- A grant touches the write queue, the fetch records and the transfer. -/
theorem grant_eq : s.grant =
    { s with
      ingest := { s.ingest with queue := s.grant.ingest.queue },
      scan := { s.scan with records := s.grant.scan.records }, transfer := s.grant.transfer } := by
  unfold State.grant
  split
  · rfl
  · split
    · rfl
    · split <;> rfl

/-! #### Errors -/

theorem damagedAt_twice (i : Nat) (m : SlotManager) : damagedAt i (damagedAt i m) = damagedAt i m := by
  unfold damagedAt
  rw [List.modify_modify_eq]
  rfl

theorem damageCurrent_eq (slot : s.ingest.slot = some i) : s.damageCurrent = { s with slots := damagedAt i s.slots } := by
  rw [State.damageCurrent, slot]
  rfl

theorem rangeError_eq (slot : s.ingest.slot = some i) : s.rangeError =
    { s with
      ingest := { s.ingest with rangeError := bump s.ingest.rangeError }, slots := damagedAt i s.slots,
      notices := s.notices ||| 0x0040#16 } := damageCurrent_eq (s := State.ingestError _ _) slot

theorem orderError_eq (slot : s.ingest.slot = some i) : s.orderError =
    { s with
      ingest := { s.ingest with orderError := bump s.ingest.orderError }, slots := damagedAt i s.slots,
      notices := s.notices ||| 0x0040#16 } := damageCurrent_eq (s := State.ingestError _ _) slot

/-- An ORDER error that abandons the open line damages the slot once. -/
theorem abandonLine_orderError (slot : s.ingest.slot = some i) : s.orderError.abandonLine =
    { s with
      ingest :=
        { s.ingest with
          orderError := bump s.ingest.orderError, openLine := none, buffer := [],
          lineAbandoned := bump s.ingest.lineAbandoned },
      slots := damagedAt i s.slots, notices := s.notices ||| 0x0040#16 } := by
  have slot' : s.orderError.ingest.slot = some i := by rw [orderError_eq slot]; exact slot
  have abandoned := abandonLine_eq slot'
  rw [orderError_eq slot] at abandoned ⊢
  rw [abandoned]
  conv_rhs => rw [← notice_twice, ← damagedAt_twice]

/-! #### The place of a segment (R152) -/

/-- The receiver takes no part in the place of a segment. -/
theorem placedAt_link : placedAt i line { s with link := l } = { placedAt i line s with link := l } := by
  unfold placedAt
  dsimp only
  split
  · rfl
  · split <;> rfl

theorem link_placedAt : (placedAt i line s).link = s.link := by
  unfold placedAt
  split
  · rfl
  · split <;> rfl

theorem slot_placedAt : (placedAt i line s).ingest.slot = s.ingest.slot := by
  unfold placedAt
  split
  · rfl
  · split <;> rfl

/-- Where a line is open once the segment is placed, nothing was abandoned, and it is the segment's. -/
theorem placedAt_of_open {o : OpenLine} (is_open : (placedAt i line s).ingest.openLine = some o) :
    placedAt i line s = s ∧ s.ingest.openLine = some o ∧ o.line = line := by
  unfold placedAt at is_open ⊢
  cases openLine : s.ingest.openLine with
  | none => simp [openLine] at is_open
  | some o' =>
    simp only [openLine] at is_open ⊢
    by_cases same : o'.line = line
    · simp only [if_pos same] at is_open ⊢
      cases openLine.symm.trans is_open
      exact ⟨trivial, rfl, same⟩
    · simp [if_neg same] at is_open

section Place

variable (slot : s.ingest.slot = some i)
include slot

theorem placeSegment_of_fresh (fresh : (placedAt i line s).ingest.openLine = none) :
    s.placeSegment c line first pixels = (placedAt i line s).placeFresh c line first pixels := by
  unfold placedAt at fresh ⊢
  unfold State.placeSegment
  cases openLine : s.ingest.openLine with
  | none => rfl
  | some o =>
    simp only [openLine] at fresh ⊢
    by_cases same : o.line = line
    · simp [if_pos same, openLine] at fresh
    · rw [if_pos same, if_neg same, abandonLine_eq slot]

omit slot in
theorem placeSegment_of_open {o : OpenLine} (is_open : (placedAt i line s).ingest.openLine = some o) :
    s.placeSegment c line first pixels =
      if first = o.next then s.fillLine c line first s.ingest.buffer pixels else s.orderError.abandonLine := by
  obtain ⟨-, openLine, same⟩ := placedAt_of_open is_open
  simp only [State.placeSegment, openLine, same, ne_eq, not_true_eq_false, if_false]

theorem offerLine_of_room (room : (writesHeld s).length < 4) : s.offerLine line pixels =
    ({ s with
      ingest :=
        { s.ingest with
          openLine := none, buffer := [], queue := s.ingest.queue ++ [⟨i, line, pixels⟩],
          linesQueued := bump s.ingest.linesQueued, accounted := insertLine line s.ingest.accounted },
      slots := s.slots.queued i } : State).grant := by
  rw [← placesHeld_eq] at room
  unfold State.offerLine
  rw [slot]
  exact if_pos room

theorem offerLine_of_full (full : 4 ≤ (writesHeld s).length) : s.offerLine line pixels =
    { s with
      ingest := { s.ingest with openLine := none, buffer := [], queueFullDrop := bump s.ingest.queueFullDrop },
      slots := damagedAt i s.slots, notices := s.notices ||| 0x0040#16 } := by
  rw [← placesHeld_eq] at full
  unfold State.offerLine
  rw [slot]
  refine (if_neg (Nat.not_lt.2 full)).trans ?_
  exact damageCurrent_eq (s := State.ingestError _ _) slot

end Place

/-- A segment that opens a line at pixel 0, or goes on where the open line stands. -/
theorem placeSegment_of_fits (slot : s.ingest.slot = some i)
    (fits : ((placedAt i line s).ingest.openLine = none ∧ first = 0) ∨
      (placedAt i line s).ingest.openLine = some ⟨line, first⟩) :
    s.placeSegment c line first pixels =
      ({ placedAt i line s with
        ingest :=
          { (placedAt i line s).ingest with
            duplicateLine :=
              if (placedAt i line s).ingest.openLine = none ∧ line ∈ (placedAt i line s).ingest.accounted then
                bump (placedAt i line s).ingest.duplicateLine
              else (placedAt i line s).ingest.duplicateLine } } : State).fillLine c line first
        (if (placedAt i line s).ingest.openLine = none then [] else (placedAt i line s).ingest.buffer) pixels := by
  rcases fits with ⟨fresh, zero⟩ | goes_on
  · rw [placeSegment_of_fresh slot fresh, if_pos fresh, State.placeFresh, if_pos zero, State.startLine]
    simp only [fresh, true_and, List.contains_iff_mem, zero]
    rfl
  · obtain ⟨same, openLine, -⟩ := placedAt_of_open goes_on
    rw [placeSegment_of_open goes_on, same, openLine]
    simp only [if_pos, reduceCtorEq, false_and, if_false]

/-! #### A good LINE -/

theorem length_take_of_lineIn (hb : LineIn e rest h body s) : (body.take h.length.toNat).length = h.length.toNat := by
  obtain ⟨-, -, p, -, -, -, whole⟩ := hb
  rw [List.length_take, whole, Nat.min_eq_left (Nat.le_add_right _ 2)]

theorem exec_line_of_good (hb : LineIn e rest h body s) (good : crcGood h.length.toNat body = true)
    (active : (s.elapse e).active = some c) :
    exec (.line e rest) s = .next
      (({ s.elapse e with link := linkTaken (s.elapse e).link } : State).takeLine c h.a.toNat h.b.toNat
        (body.take h.length.toNat)) := by
  have active' : ((s.elapse e).setLink (s.elapse e).link.complete).active = some c := active
  rw [exec_line hb.1, lineLastByte_of_lineIn hb, State.lineTaken, if_pos good, ifConfigured_of_some active']
  rfl

section Segment

variable (fills : s.ingest.state = .inFrame)
include fills

theorem takeLine_of_inFrame : s.takeLine c line first payload = s.takeSegment c line first payload := by
  rw [State.takeLine, fills]

theorem takeLine_of_range (out : c.h ≤ line ∨ c.w ≤ first) : s.takeLine c line first payload = s.rangeError := by
  rw [takeLine_of_inFrame fills]
  exact if_pos out

theorem takeLine_of_format (inside : ¬ (c.h ≤ line ∨ c.w ≤ first))
    (misplaced : payload.length % c.format.groupBytes ≠ 0 ∨ first % c.format.groupPixels ≠ 0) :
    s.takeLine c line first payload = s.ingestError { s.ingest with formatError := bump s.ingest.formatError } := by
  rw [takeLine_of_inFrame fills]
  exact (if_neg inside).trans (if_pos misplaced)

variable (inside : ¬ (c.h ≤ line ∨ c.w ≤ first))
  (placed : ¬ (payload.length % c.format.groupBytes ≠ 0 ∨ first % c.format.groupPixels ≠ 0))
include inside placed

theorem takeLine_of_overrun (overrun : c.wholeGroups < first + c.format.pixelCount payload.length) :
    s.takeLine c line first payload = s.rangeError := by
  rw [takeLine_of_inFrame fills]
  exact (if_neg inside).trans ((if_neg placed).trans (if_pos overrun))

theorem takeLine_of_segment (fits : first + c.format.pixelCount payload.length ≤ c.wholeGroups) :
    s.takeLine c line first payload = s.placeSegment c line first (convertPixels c.format payload) := by
  rw [takeLine_of_inFrame fills]
  exact (if_neg inside).trans ((if_neg placed).trans (if_neg (Nat.not_lt.2 fits)))

end Segment

/-- Settles O39: by the assembler's state, then range, format, last group and place. -/
theorem lineErrors : Obligations.LineErrors := by
  intro e rest body h c s hb good active b taken ranged misplaced reach groups
  have length := length_take_of_lineIn hb
  have took : exec (.line e rest) s = .next (taken.takeLine c h.a.toNat h.b.toNat (body.take h.length.toNat)) :=
    exec_line_of_good hb good active
  rw [took]
  refine ⟨fun idle => ?_, fun drops => ?_, fun i fills slot out => ?_, fun fills row column wrong => ?_,
    fun i fills slot row column right => ⟨fun overrun => ?_, fun within => ?_⟩⟩
  · have idle' : taken.ingest.state = .noFrame := idle
    rw [State.takeLine, idle']
    rfl
  · have drops' : taken.ingest.state = .discarding := drops
    rw [State.takeLine, drops']
  · rw [takeLine_of_range (s := taken) fills out, rangeError_eq (s := taken) slot]
  · rw [takeLine_of_format (s := taken) fills (by omega) (by rw [length]; exact wrong)]
    rfl
  · rw [takeLine_of_overrun (s := taken) fills (by omega) (by rw [length]; exact right) (by rw [length]; exact overrun),
      rangeError_eq (s := taken) slot]
  · rw [takeLine_of_segment (s := taken) fills (by omega) (by rw [length]; exact right) (by rw [length]; exact within)]
    have moved : placedAt i h.a.toNat taken = { placedAt i h.a.toNat b with link := linkTaken b.link } := placedAt_link
    refine ⟨fun fresh off_start => ?_, fun o is_open apart => ?_⟩
    · have fresh' : (placedAt i h.a.toNat taken).ingest.openLine = none := by rw [moved]; exact fresh
      have off : h.b.toNat ≠ 0 := fun zero => off_start (BitVec.eq_of_toNat_eq zero)
      have slot' : (placedAt i h.a.toNat taken).ingest.slot = some i := slot_placedAt.trans slot
      rw [placeSegment_of_fresh (s := taken) slot fresh', State.placeFresh, if_neg off, orderError_eq slot', moved]
    · have is_open' : (placedAt i h.a.toNat taken).ingest.openLine = some o := by rw [moved]; exact is_open
      rw [placeSegment_of_open (s := taken) is_open', if_neg apart, abandonLine_orderError (s := taken) slot]

/-- Settles O38: the segment joins the line buffer, and a whole line is offered to the write queue. -/
theorem wholeLineIsQueued : Obligations.WholeLineIsQueued := by
  intro e rest body h c i s hb good active fills slot row column groups aligned count within b opens place pixels line
    base taken
  have length := length_take_of_lineIn hb
  let received : State := { s.elapse e with link := linkTaken (s.elapse e).link }
  have moved : placedAt i h.a.toNat received = taken := by
    rw [placedAt_link, ← link_placedAt (i := i) (line := h.a.toNat)]
  have many : pixels.length = count := by rw [length_convertPixels, length]
  let filled : State := { taken with ingest := base }
  have placed : exec (.line e rest) s = .next
      (filled.fillLine c h.a.toNat h.b.toNat (if b.ingest.openLine = none then [] else b.ingest.buffer) pixels) := by
    have fits : ((placedAt i h.a.toNat received).ingest.openLine = none ∧ h.b.toNat = 0) ∨
        (placedAt i h.a.toNat received).ingest.openLine = some ⟨h.a.toNat, h.b.toNat⟩ := by
      rw [moved]
      exact place.imp_left fun ⟨fresh, zero⟩ => ⟨fresh, congrArg BitVec.toNat zero⟩
    have placed := placeSegment_of_fits (s := received) (c := c) (pixels := pixels) slot fits
    rw [moved] at placed
    refine (exec_line_of_good hb good active).trans (congrArg _ (Eq.trans ?_ placed))
    exact takeLine_of_segment (s := received) fills (by omega) (by rw [length]; omega) (by rw [length]; exact within)
  have whole : (if b.ingest.openLine = none then [] else b.ingest.buffer) ++ pixels = line := by
    simp only [line]
    split <;> rfl
  have slot' : filled.ingest.slot = some i := slot_placedAt.trans slot
  refine ⟨many, fun short => ?_, fun reaches room => ?_, fun reaches full => ?_⟩
  · rw [placed, State.fillLine, if_neg (by omega), whole, many]
    rfl
  · rw [placed, State.fillLine, if_pos (by omega), whole, offerLine_of_room slot' room]
    let queued : State :=
      { taken with
        ingest :=
          { base with
            openLine := none, buffer := [], queue := b.ingest.queue ++ [⟨i, h.a.toNat, line.take c.w⟩],
            linesQueued := bump b.ingest.linesQueued, accounted := insertLine h.a.toNat b.ingest.accounted },
        slots := b.slots.queued i }
    have granted : queued.grant = _ := grant_eq
    have linked : Frame [.link, .ingest, .slots, .scan, .transfer] b taken := (Frame.setLink b _).mono (by decide)
    have buffered : Frame [.link, .ingest, .slots, .scan, .transfer] taken (taken.setIngest queued.ingest) :=
      (Frame.setIngest _ _).mono (by decide)
    have counted : Frame [.link, .ingest, .slots, .scan, .transfer] (taken.setIngest queued.ingest) queued :=
      (Frame.setSlots _ queued.slots).mono (by decide)
    exact ⟨queued.grant, rfl, (congrArg State.link granted :), (congrArg State.notices granted :),
      (congrArg State.ingest granted :), (congrArg State.slots granted :), (congrArg State.scan granted :),
      granted_grant (s := queued), ((linked.trans buffered).trans counted).trans ((Frame.grant queued).mono (by decide))⟩
  · rw [placed, State.fillLine, if_pos (by omega), whole, offerLine_of_full slot' full]

end Sys2Proof

/-! ### Reports (R172 to R176, R181) -/

namespace Sys2Proof

open Sys2Proof.Machine

variable {s : State} {e : Elapsed} {rest : List Byte} {fixed : Bool} {h : LinkHeader} {p : Poll}

/-! #### The cut -/

/-- The longest leading run of whole fields that fits. -/
theorem takeFields_spec (room : Nat) (fields : List (List Byte)) :
    ∃ n, n ≤ fields.length ∧ takeFields room fields = fields.take n ∧ (fields.take n).flatten.length ≤ room ∧
      ∀ f, fields[n]? = some f → room < (fields.take n).flatten.length + f.length := by
  induction fields generalizing room with
  | nil => exact ⟨0, le_rfl, rfl, Nat.zero_le _, nofun⟩
  | cons f fs ih =>
    unfold takeFields
    by_cases fits : f.length ≤ room
    · obtain ⟨n, inside, taken, within, next⟩ := ih (room - f.length)
      refine ⟨n + 1, Nat.succ_le_succ inside, by rw [if_pos fits, taken, List.take_succ_cons], ?_, fun g hg => ?_⟩
      · simp only [List.take_succ_cons, List.flatten_cons, List.length_append]
        omega
      · have := next g hg
        simp only [List.take_succ_cons, List.flatten_cons, List.length_append]
        omega
    · refine ⟨0, Nat.zero_le _, by rw [if_neg fits, List.take_zero], Nat.zero_le _, fun g hg => ?_⟩
      cases hg
      simpa using fits

theorem length_bytes16 (x : BitVec 16) : (bytes16 x).length = 2 := rfl

theorem cutAtFields_cutReport {max : Nat} (kind : ReportKind) (notices : BitVec 16) (fields : List (List Byte))
    (room : 2 ≤ max) : CutAtFields max notices fields (cutReport kind max notices fields) := by
  obtain ⟨n, inside, taken, within, next⟩ := takeFields_spec (max - 2) fields
  refine ⟨n, inside, by rw [← taken]; rfl, ?_, rfl, ?_, fun f hf => ?_⟩
  · simp only [cutReport, taken, List.length_append, length_bytes16]
    omega
  · simp only [cutReport, taken, List.length_take, decide_eq_true_eq]
    omega
  · have := next f hf
    simp only [cutReport, taken, List.length_append, length_bytes16]
    omega

theorem cutAtEntries_pageReport {notices : BitVec 16} {first : List Byte} {entries : List (Nat × List Byte)}
    (room : 2 + first.length ≤ p.max) :
    CutAtEntries p.start p.max notices first entries (pageReport p notices first entries) := by
  unfold CutAtEntries
  intro asked
  obtain ⟨n, inside, taken, within, next⟩ := takeFields_spec (p.max - 2 - first.length) (asked.map Prod.snd)
  rw [List.length_map] at inside
  have kept : (takeFields (p.max - 2 - first.length) (asked.map Prod.snd)).length = n := by
    rw [taken, List.length_take, List.length_map, Nat.min_eq_left inside]
  have same : (pageReport p notices first entries).payload = bytes16 notices ++ first ++ ((asked.take n).map Prod.snd).flatten := by
    rw [List.map_take, ← taken]
    rfl
  have size : (pageReport p notices first entries).payload.length =
      2 + first.length + ((asked.map Prod.snd).take n).flatten.length := by
    rw [same, List.map_take]
    simp only [List.length_append, length_bytes16]
  have index : (pageReport p notices first entries).nextIndex =
      match asked[n]? with
      | some x => some (if n = 0 then p.start else byteOf x.1)
      | none => none := by
    rw [← kept]
    rfl
  refine ⟨n, inside, same, by omega, ?_, fun all => ?_, fun x hx => ⟨?_, ?_⟩⟩
  · have cut : (pageReport p notices first entries).truncated = decide (n < asked.length) := by
      rw [← kept]
      rfl
    rw [cut, decide_eq_true_iff]
  · rw [index, List.getElem?_eq_none all.ge]
  · have := next x.2 (by rw [List.getElem?_map, hx]; rfl)
    omega
  · rw [index, hx]
    rfl

/-- Settles O43: the longest leading run of whole fields or entries. -/
theorem reportsAreCutAtWholeEntries : Obligations.ReportsAreCutAtWholeEntries :=
  ⟨fun _ _ _ _ room => cutAtEntries_pageReport room, fun kind _ notices fields room =>
    cutAtFields_cutReport kind notices fields room, bytes16_eq⟩

/-! #### The report of a POLL -/

theorem contentOf_flags : (s.contentOf p).kind = p.kind ∧ (s.contentOf p).unavailable = false := by
  unfold State.contentOf
  cases kind : p.kind <;> simp only [cutReport, pageReport, kind, and_self]

/-- Where a report has no content but the notice set (R181). -/
theorem onlyNotices_iff : (s.loader.station == .configFault && !p.kind.inConfigFault) = true ↔
    s.loader.station = .configFault ∧ p.kind ≠ .ident ∧ p.kind ≠ .link := by
  have built : (!p.kind.inConfigFault) = true ↔ p.kind ≠ .ident ∧ p.kind ≠ .link := by
    cases p.kind <;> simp [ReportKind.inConfigFault]
  rw [Bool.and_eq_true, built, beq_iff_eq]

theorem length_rosterItems : (rosterItems s).flatten.length = 12 := by
  have counter (x : Counter) : (numberBytes 2 x.toNat).length = 2 := rfl
  have address (a : Option Address) : (addressOrNone a).length = 1 := by cases a <;> rfl
  simp [rosterItems, counts, counter, address]

theorem reportFor_reportOf : ReportFor p s (s.reportOf p) := by
  unfold State.reportOf
  by_cases only : s.loader.station = .configFault ∧ p.kind ≠ .ident ∧ p.kind ≠ .link
  · rw [if_pos (onlyNotices_iff.2 only)]
    exact ⟨rfl, iff_of_true rfl only, fun _ => ⟨rfl, rfl, bytes16_eq _⟩, fun other => (other only).elim⟩
  · rw [if_neg fun k => only (onlyNotices_iff.1 k)]
    obtain ⟨kind, available⟩ := contentOf_flags (s := s) (p := p)
    refine ⟨kind, iff_of_false (by simp [available]) only, fun k => (only k).elim, fun _ room => ?_⟩
    have fields (f : List (List Byte)) : CutAtFields p.max s.notices f (cutReport p.kind p.max s.notices f) :=
      cutAtFields_cutReport _ _ _ (by omega)
    cases poll : p.kind with
    | roster =>
      intro law
      rw [contentOf_eq p fun _ => law, poll]
      exact cutAtEntries_pageReport (by rw [length_rosterItems]; omega)
    | slots =>
      rw [contentOf_eq p (by simp [poll]), poll]
      exact cutAtEntries_pageReport (by rw [numberBytes_one]; simp; omega)
    | _ =>
      rw [poll] at fields
      rw [contentOf_eq p (by simp [poll]), poll]
      exact fields _

/-! #### Taking a POLL -/

theorem reportKind_ofCode_eq_lookup (code : Byte) : ReportKind.ofCode code =
    ([(1#8, .ident), (2#8, .link), (3#8, .ingest), (4#8, .slots), (5#8, .roster), (6#8, .timing), (7#8, .present),
      (8#8, .ring)] : List (Byte × ReportKind)).lookup code := by
  simp only [lookup_cons_eq_ite, List.lookup_nil]
  rfl

theorem attnLow_iff : s.attnLow = true ↔ ∃ n : Nat, s.notices.getLsbD n = true := by
  rw [State.attnLow, bne_iff_ne]
  constructor
  · intro some_held
    by_contra none_held
    exact some_held (BitVec.eq_of_getLsbD_eq fun i _ => by simpa using fun held => none_held ⟨i, held⟩)
  · rintro ⟨n, held⟩ none_held
    rw [none_held] at held
    simp at held

theorem beginReport_of_idle {queue : List Poll} (idle : s.report.sending = none) (head : s.report.queue = p :: queue) :
    s.beginReport =
      (let done : State := { s with report := { s.report with queue := queue } }
      { done with report := { done.report with sending := some (done.reportOf p) }, notices := 0 }) := by
  unfold State.beginReport
  rw [idle, head]
  rfl

theorem beginReport_of_sending {r : Report} (busy : s.report.sending = some r) : s.beginReport = s := by
  unfold State.beginReport
  rw [busy]

theorem beginReport_of_empty (empty : s.report.queue = []) : s.beginReport = s := by
  unfold State.beginReport
  rw [empty]
  cases s.report.sending <;> rfl

theorem pollOf_of_bad (bad : ReportKind.ofCode (h.a.extractLsb' 0 8) = none ∨ h.b.toNat < 16 ∨ 1024 < h.b.toNat) :
    pollOf h = none := by
  unfold pollOf
  rcases bad with unlisted | range
  · rw [unlisted]
  · split
    · exact if_neg (by simp only [within, decide_eq_true_eq]; omega)
    · rfl

theorem pollOf_of_good {k : ReportKind} (listed : ReportKind.ofCode (h.a.extractLsb' 0 8) = some k)
    (low : 16 ≤ h.b.toNat) (high : h.b.toNat ≤ 1024) : pollOf h = some ⟨k, h.a.extractLsb' 8 8, h.b.toNat⟩ := by
  unfold pollOf
  rw [listed]
  exact if_pos (by simp only [within, decide_eq_true_eq]; omega)

/-- Settles O41: by the POLL's check, the return lane and the poll queue. -/
theorem pollIsTaken : Obligations.PollIsTaken := by
  refine ⟨reportKind_ofCode_eq_lookup, fun s => attnLow_iff, ?_⟩
  intro e rest fixed h s hh kind empty b taken
  have took : exec (.poll e rest) s = .next (taken.takePoll h) := by
    rw [exec_poll hh.1, linkEighthByte_of_complete hh (k := .poll) (by rw [kind]; rfl) empty nofun nofun]
    rfl
  rw [took]
  refine ⟨fun bad => ?_, fun k listed low high => ?_⟩
  · rw [State.takePoll, pollOf_of_bad bad]
    rfl
  · intro p
    have polled : taken.takePoll h =
        if taken.report.sending.isSome ∧ Config.pollPlaces ≤ taken.report.queue.length then
          (taken.setReport { taken.report with pollDropped := bump taken.report.pollDropped }).raise .pollOverrun
        else (taken.setReport { taken.report with queue := taken.report.queue ++ [p] }).beginReport := by
      rw [State.takePoll, pollOf_of_good listed low high]
    rw [polled]
    refine ⟨fun idle none => ⟨taken.reportOf p, ?_, reportFor_reportOf⟩, fun busy room => ?_, fun busy full => ?_⟩
    · let waiting : State := taken.setReport { taken.report with queue := taken.report.queue ++ [p] }
      have waits : waiting.report.queue = p :: [] := congrArg (· ++ [p]) none
      have emptied : ({ taken with report := { taken.report with queue := [] } } : State) = taken :=
        congrArg (fun queue => taken.setReport { taken.report with queue := queue }) none.symm
      rw [if_neg fun k => absurd k.1 (by simp [taken, idle])]
      refine congrArg _ ((beginReport_of_idle (s := waiting) idle waits).trans ?_)
      exact congrArg
        (fun x : State => (x.setReport { x.report with sending := some (x.reportOf p) }).setNotices 0) emptied
    · obtain ⟨r, sends⟩ := Option.ne_none_iff_exists'.1 busy
      rw [if_neg fun k => absurd k.2 (Nat.not_le.2 room)]
      exact congrArg _ (beginReport_of_sending (s := State.setReport _ _) sends)
    · rw [if_pos ⟨Option.isSome_iff_ne_none.2 busy, full⟩]
      rfl

/-- Settles O42: the head of the poll queue begins, or the lane is IDLE. -/
theorem reportCompletes : Obligations.ReportCompletes := by
  intro e r s running sends b
  let done : State :=
    { b with report := { b.report with sending := none, reportsSent := bump b.report.reportsSent } }
  have completed : exec (.reportComplete e) s = .next done.beginReport := by
    rw [exec_reportComplete running, State.reportDone, sends]
    rfl
  rw [completed]
  refine ⟨fun empty => ?_, fun p rest head => ⟨_, congrArg _ (beginReport_of_idle (s := done) rfl head),
    reportFor_reportOf⟩⟩
  · rw [beginReport_of_empty (s := done) empty]

end Sys2Proof

/-! ### Commands of the source (R178 to R180, R187) -/

namespace Sys2Proof

open Sys2Proof.Machine

variable {s : State} {e : Elapsed} {rest : List Byte} {fixed : Bool} {h : LinkHeader} {c : Settings}

/-- Settles O44: the groups are cleared one by one. -/
theorem clearZeroesSelectedGroups : Obligations.ClearZeroesSelectedGroups := by
  intro e rest fixed h s hh kind empty b
  rw [exec_clear hh.1, linkEighthByte_of_complete hh (k := .clear) (by rw [kind]; rfl) empty nofun nofun]
  exact congrArg _ ((takeClear_eq h.a).trans rfl)

/-! #### LINK_RESET -/

theorem abandoned_of_reset (writing : Bool) (r : Slot) :
    (if r.state == .filling || r.state == .closing then r.abandoned writing else r) =
      if r.state = .filling ∨ r.state = .closing then
        (if writing = true then { r with state := .draining, pending := 1 } else ⟨.free, none, [], 0, false⟩)
      else r :=
  if_congr (by simp) rfl rfl

/-- Settles O45: the assembler, the slots and the poll queue, each by its own part of the reset. -/
theorem linkResetClearsSourceSide : Obligations.LinkResetClearsSourceSide := by
  intro e rest fixed h s hh kind empty b
  let taken : State := { b with link := linkTaken b.link }
  have took : exec (.linkReset e rest) s = .next taken.takeLinkReset := by
    rw [exec_linkReset hh.1, linkEighthByte_of_complete hh (k := .linkReset) (by rw [kind]; rfl) empty nofun nofun]
    rfl
  have linked : Frame [.link, .ingest, .report, .slots] b taken := (Frame.setLink b _).mono (by decide)
  refine ⟨taken.takeLinkReset, took, rfl, rfl, rfl, rfl, List.length_mapIdx, fun i r hi => ?_,
    linked.trans ((Frame.takeLinkReset taken).mono (by decide))⟩
  have mapped : taken.takeLinkReset.slots.table[i]? = some
      (if r.state == .filling || r.state == .closing then r.abandoned (b.writing i) else r) := by
    refine (List.getElem?_mapIdx ..).trans ?_
    exact congrArg (Option.map _) hi
  rw [mapped, abandoned_of_reset]

/-! #### WITHDRAW and REJOIN -/

theorem loader_linkBase : (linkBase e fixed s).loader = (s.elapse e).loader := by
  cases fixed <;> rfl

theorem station_linkBase : (linkBase e fixed s).loader.station = s.loader.station := by
  rw [loader_linkBase, elapse_station]

theorem settled_linkBase : (linkBase e fixed s).loader.settled = s.loader.settled := by
  rw [loader_linkBase, elapse_settled]

section Commands

variable (hh : LinkHeaderIn e rest fixed h s) (empty : h.length = 0) (active : s.active = some c)
include hh empty active

theorem exec_withdraw_of_active (kind : h.kind = 0x23#8) : exec (.withdraw e rest) s = .next
    ({ linkBase e fixed s with link := linkTaken (linkBase e fixed s).link } : State).takeWithdraw := by
  rw [exec_withdraw hh.1, linkEighthByte_of_complete hh (k := .withdraw) (by rw [kind]; rfl) empty nofun nofun]
  exact congrArg _ (ifConfigured_of_some (active_linkBase.trans active))

theorem exec_rejoin_of_active (kind : h.kind = 0x24#8) : exec (.rejoin e rest) s = .next
    ({ linkBase e fixed s with link := linkTaken (linkBase e fixed s).link } : State).takeRejoin := by
  rw [exec_rejoin hh.1, linkEighthByte_of_complete hh (k := .rejoin) (by rw [kind]; rfl) empty nofun nofun]
  exact congrArg _ (ifConfigured_of_some (active_linkBase.trans active))

end Commands

theorem active_of_running (running : s.loader.station = .running) (settled : s.loader.settled = some c) :
    s.active = some c := by rw [State.active, running, settled]

theorem active_of_withdrawn (withdrawn : s.loader.station = .withdrawn) (settled : s.loader.settled = some c) :
    s.active = some c := by rw [State.active, withdrawn, settled]

theorem takeWithdraw_of_running (running : s.loader.station = .running) : s.takeWithdraw = s.enterWithdrawn := by
  rw [State.takeWithdraw, running]

theorem takeWithdraw_of_withdrawn (withdrawn : s.loader.station = .withdrawn) : s.takeWithdraw = s := by
  rw [State.takeWithdraw, withdrawn]

theorem takeRejoin_of_withdrawn (withdrawn : s.loader.station = .withdrawn) : s.takeRejoin =
    { s with
      loader := { s.loader with station := .running }, role := { s.role with role := .listening, listening := 0 },
      roster := { s.roster with ownPresent := true }, notices := s.notices ||| 0x0002#16 } := by
  rw [State.takeRejoin, withdrawn]
  rfl

theorem takeRejoin_of_running (running : s.loader.station = .running) : s.takeRejoin = s := by
  rw [State.takeRejoin, running]

/-- Settles O46: by whether the station is ORIGIN, the places of RING OUT last. -/
theorem withdrawEntersStandby : Obligations.WithdrawEntersStandby := by
  intro e rest fixed h c s hh kind empty running settled b withdrawn
  let taken : State := { b with link := linkTaken b.link }
  have took : exec (.withdraw e rest) s = .next taken.enterWithdrawn := by
    rw [exec_withdraw_of_active hh empty (active_of_running running settled) kind]
    exact congrArg _ (takeWithdraw_of_running (station_linkBase.trans running))
  rw [took]
  refine ⟨fun other => congrArg _ ?_, fun origin => congrArg _ ?_⟩
  · exact enterWithdrawn_eq (s := taken) (c := c) (enterStandby_of_other other) (settled_linkBase.trans settled)
  · exact enterWithdrawn_eq (s := taken) (c := c) (enterStandby_of_origin origin) (settled_linkBase.trans settled)

/-- Settles O47: by the station state. -/
theorem rejoinReturnsToListening : Obligations.RejoinReturnsToListening := by
  intro e rest fixed h c s hh empty settled b taken
  refine ⟨fun kind withdrawn => ?_, fun kind running => ?_, fun kind withdrawn => ?_⟩
  · rw [exec_rejoin_of_active hh empty (active_of_withdrawn withdrawn settled) kind]
    exact congrArg _ (takeRejoin_of_withdrawn (station_linkBase.trans withdrawn))
  · rw [exec_rejoin_of_active hh empty (active_of_running running settled) kind]
    exact congrArg _ (takeRejoin_of_running (station_linkBase.trans running))
  · rw [exec_withdraw_of_active hh empty (active_of_withdrawn withdrawn settled) kind]
    exact congrArg _ (takeWithdraw_of_withdrawn (station_linkBase.trans withdrawn))

end Sys2Proof

/-! ### Headers as sent and as read (13.4, 13.5) -/

namespace Sys2Proof

open Sys2Proof.Machine

theorem numberBytes_two (n : Nat) : numberBytes 2 n = [BitVec.ofNat 8 (n / 256), BitVec.ofNat 8 n] := by
  simp [numberBytes, List.range_succ]

/-- A byte of fields, the lowest one last, is the number that they add up to. -/
theorem numberBytes_of_toNat {x : Byte} {n : Nat} (h : x.toNat = n) : numberBytes 1 n = [x] := by
  rw [← h, numberBytes_byte]

/-- Two bit vectors that agree at every place. -/
theorem extract_eq {w i n : Nat} {x : BitVec w} {y : BitVec n} (h : ∀ j, j < n → x.getLsbD (i + j) = y.getLsbD j) :
    x.extractLsb' i n = y :=
  BitVec.eq_of_getLsbD_eq fun j hj => by simpa [hj] using h j hj

/-! #### Ring headers -/

/-- The places of 13.4: header bit `i` belongs to the field that covers it. -/
theorem getLsbD_ringBits (h : RingHeader) (i : Nat) : h.bits.getLsbD i =
    if i < 8 then h.kind.getLsbD i else if i < 11 then h.group.getLsbD (i - 8)
    else if i < 16 then h.origin.getLsbD (i - 11) else if i < 24 then h.sequence.getLsbD (i - 16)
    else if i < 30 then h.hops.getLsbD (i - 24) else if i < 31 then h.taint
    else if i < 32 then h.zeroHops.getLsbD (i - 31) else if i < 38 then h.length.getLsbD (i - 32)
    else if i < 40 then h.zeroLength.getLsbD (i - 38) else if i < 48 then h.delay.getLsbD (8 + (i - 40))
    else if i < 56 then h.delay.getLsbD (i - 48) else false := by
  unfold RingHeader.bits
  repeat rw [BitVec.getLsbD_append]
  grind (splits := 24)

theorem ringHeader_bits (h : RingHeader) : ringHeader h.bits = h := by
  have kind : h.bits.extractLsb' 0 8 = h.kind := extract_eq (by grind [getLsbD_ringBits])
  have group : h.bits.extractLsb' 8 3 = h.group := extract_eq (by grind [getLsbD_ringBits])
  have origin : h.bits.extractLsb' 11 5 = h.origin := extract_eq (by grind [getLsbD_ringBits])
  have sequence : h.bits.extractLsb' 16 8 = h.sequence := extract_eq (by grind [getLsbD_ringBits])
  have hops : h.bits.extractLsb' 24 6 = h.hops := extract_eq (by grind [getLsbD_ringBits])
  have taint : h.bits.getLsbD 30 = h.taint := getLsbD_ringBits h 30
  have zeroHops : h.bits.extractLsb' 31 1 = h.zeroHops := extract_eq (by grind [getLsbD_ringBits])
  have length : h.bits.extractLsb' 32 6 = h.length := extract_eq (by grind [getLsbD_ringBits])
  have zeroLength : h.bits.extractLsb' 38 2 = h.zeroLength := extract_eq (by grind [getLsbD_ringBits])
  have high : h.bits.extractLsb' 40 8 = h.delay.extractLsb' 8 8 := extract_eq (by grind [getLsbD_ringBits])
  have low : h.bits.extractLsb' 48 8 = h.delay.extractLsb' 0 8 := extract_eq (by grind [getLsbD_ringBits])
  have delay : h.bits.extractLsb' 40 8 ++ h.bits.extractLsb' 48 8 = h.delay := by
    rw [high, low]
    exact word16_bytes h.delay
  unfold ringHeader
  rw [kind, group, origin, sequence, hops, taint, zeroHops, length, zeroLength, delay]

theorem bits_ringHeader (b : HeaderBits) : (ringHeader b).bits = b := by
  refine BitVec.eq_of_getLsbD_eq fun i inside => ?_
  rw [getLsbD_ringBits]
  simp only [ringHeader, BitVec.getLsbD_extractLsb', BitVec.getLsbD_append]
  grind (splits := 24)

/-- The data bytes, each of the fields that share it. -/
theorem unpackHeader_ringBits (h : RingHeader) : unpackHeader h.bits =
    [h.kind, h.origin ++ h.group, h.sequence, h.zeroHops ++ BitVec.ofBool h.taint ++ h.hops, h.zeroLength ++ h.length,
      h.delay.extractLsb' 8 8, h.delay.extractLsb' 0 8] := by
  have kind : h.bits.extractLsb' 0 8 = h.kind := extract_eq (by grind [getLsbD_ringBits])
  have address : h.bits.extractLsb' 8 8 = h.origin ++ h.group := extract_eq (by grind [getLsbD_ringBits])
  have sequence : h.bits.extractLsb' 16 8 = h.sequence := extract_eq (by grind [getLsbD_ringBits])
  have hops : h.bits.extractLsb' 24 8 = h.zeroHops ++ BitVec.ofBool h.taint ++ h.hops :=
    extract_eq (by grind [getLsbD_ringBits])
  have length : h.bits.extractLsb' 32 8 = h.zeroLength ++ h.length := extract_eq (by grind [getLsbD_ringBits])
  have high : h.bits.extractLsb' 40 8 = h.delay.extractLsb' 8 8 := extract_eq (by grind [getLsbD_ringBits])
  have low : h.bits.extractLsb' 48 8 = h.delay.extractLsb' 0 8 := extract_eq (by grind [getLsbD_ringBits])
  unfold unpackHeader
  rw [kind, address, sequence, hops, length, high, low]

theorem ringBits_numbers (h : RingHeader) : unpackHeader h.bits =
    [h.kind] ++ numberBytes 1 (h.group.toNat + 8 * h.origin.toNat) ++ [h.sequence] ++
      numberBytes 1 (h.hops.toNat + 64 * h.taint.toNat + 128 * h.zeroHops.toNat) ++
      numberBytes 1 (h.length.toNat + 64 * h.zeroLength.toNat) ++ numberBytes 2 h.delay.toNat := by
  have address : (h.origin ++ h.group).toNat = h.group.toNat + 8 * h.origin.toNat := by
    rw [toNat_append_eq]
    omega
  have hops : (h.zeroHops ++ BitVec.ofBool h.taint ++ h.hops).toNat =
      h.hops.toNat + 64 * h.taint.toNat + 128 * h.zeroHops.toNat := by
    rw [toNat_append_eq, toNat_append_eq, BitVec.toNat_ofBool]
    omega
  have length : (h.zeroLength ++ h.length).toNat = h.length.toNat + 64 * h.zeroLength.toNat := by
    rw [toNat_append_eq]
    omega
  rw [unpackHeader_ringBits, ← bytes16_eq, numberBytes_of_toNat address, numberBytes_of_toNat hops,
    numberBytes_of_toNat length]
  rfl

/-! #### Source link headers -/

/-- The places of 13.5; bits 46 and 47 belong to no field. -/
theorem getLsbD_linkBits (l : LinkHeader) (i : Nat) : l.bits.getLsbD i =
    if i < 8 then l.kind.getLsbD i else if i < 16 then l.a.getLsbD (8 + (i - 8))
    else if i < 24 then l.a.getLsbD (i - 16) else if i < 32 then l.b.getLsbD (8 + (i - 24))
    else if i < 40 then l.b.getLsbD (i - 32) else if i < 46 then l.length.getLsbD (8 + (i - 40))
    else if i < 48 then false else if i < 56 then l.length.getLsbD (i - 48) else false := by
  unfold LinkHeader.bits
  repeat rw [BitVec.getLsbD_append]
  grind (splits := 24)

/-- The data bytes of a source link header. -/
theorem unpackHeader_linkBits (l : LinkHeader) : unpackHeader l.bits =
    [l.kind] ++ bytes16 l.a ++ bytes16 l.b ++ bytes16 (l.length.setWidth 16) := by
  have kind : l.bits.extractLsb' 0 8 = l.kind := extract_eq (by grind [getLsbD_linkBits])
  have high_a : l.bits.extractLsb' 8 8 = l.a.extractLsb' 8 8 := extract_eq (by grind [getLsbD_linkBits])
  have low_a : l.bits.extractLsb' 16 8 = l.a.extractLsb' 0 8 := extract_eq (by grind [getLsbD_linkBits])
  have high_b : l.bits.extractLsb' 24 8 = l.b.extractLsb' 8 8 := extract_eq (by grind [getLsbD_linkBits])
  have low_b : l.bits.extractLsb' 32 8 = l.b.extractLsb' 0 8 := extract_eq (by grind [getLsbD_linkBits])
  have high : l.bits.extractLsb' 40 8 = (l.length.setWidth 16).extractLsb' 8 8 :=
    extract_eq (by grind [getLsbD_linkBits])
  have low : l.bits.extractLsb' 48 8 = (l.length.setWidth 16).extractLsb' 0 8 :=
    extract_eq (by grind [getLsbD_linkBits])
  unfold unpackHeader
  rw [kind, high_a, low_a, high_b, low_b, high, low]
  rfl

theorem linkBits_numbers (l : LinkHeader) : unpackHeader l.bits =
    [l.kind] ++ numberBytes 2 l.a.toNat ++ numberBytes 2 l.b.toNat ++ numberBytes 2 l.length.toNat := by
  have length : (l.length.setWidth 16).toNat = l.length.toNat := BitVec.toNat_setWidth_of_le (by decide)
  rw [unpackHeader_linkBits, bytes16_eq, bytes16_eq, bytes16_eq, length]

theorem linkHeader_bits (l : LinkHeader) : linkHeader l.bits = l := by
  have kind : l.bits.extractLsb' 0 8 = l.kind := extract_eq (by grind [getLsbD_linkBits])
  have a : l.bits.extractLsb' 8 8 ++ l.bits.extractLsb' 16 8 = l.a :=
    BitVec.eq_of_getLsbD_eq fun i hi => by
      rw [BitVec.getLsbD_append, BitVec.getLsbD_extractLsb', BitVec.getLsbD_extractLsb']
      grind [getLsbD_linkBits]
  have b : l.bits.extractLsb' 24 8 ++ l.bits.extractLsb' 32 8 = l.b :=
    BitVec.eq_of_getLsbD_eq fun i hi => by
      rw [BitVec.getLsbD_append, BitVec.getLsbD_extractLsb', BitVec.getLsbD_extractLsb']
      grind [getLsbD_linkBits]
  have length : l.bits.extractLsb' 40 6 ++ l.bits.extractLsb' 48 8 = l.length :=
    BitVec.eq_of_getLsbD_eq fun i hi => by
      rw [BitVec.getLsbD_append, BitVec.getLsbD_extractLsb', BitVec.getLsbD_extractLsb']
      grind [getLsbD_linkBits]
  unfold linkHeader
  rw [kind, a, b, length]

/-- The receiver drops the two bits that no field uses. -/
theorem getLsbD_bits_linkHeader (b : HeaderBits) {i : Nat} (inside : i < 56) :
    (linkHeader b).bits.getLsbD i = (b.getLsbD i && decide (i ≠ 46) && decide (i ≠ 47)) := by
  rw [getLsbD_linkBits]
  simp only [linkHeader, BitVec.getLsbD_append, BitVec.getLsbD_extractLsb']
  grind

theorem packHeader_unpackHeader (b : HeaderBits) : packHeader (unpackHeader b) = b := by
  simpa using packHeader_unpackHeader_append b []

end Sys2Proof

/-! ### Ring payloads as sent and as read (13.4, R49) -/

namespace Sys2Proof

open Sys2Proof.Machine

variable {bs : List Byte}

/-! #### Words of a payload -/

theorem ofNat_toNat_eq {n v : Nat} {x : BitVec n} (h : x.toNat = v) : x = BitVec.ofNat n v := by
  rw [← h, BitVec.ofNat_toNat, BitVec.setWidth_eq]

theorem word16_number (hi lo : Byte) : word16 hi lo = BitVec.ofNat 16 (256 * hi.toNat + lo.toNat) :=
  ofNat_toNat_eq (toNat_word16 hi lo)

theorem word24_number (x y z : Byte) :
    x ++ y ++ z = BitVec.ofNat 24 (65536 * x.toNat + 256 * y.toNat + z.toNat) := by
  refine ofNat_toNat_eq ?_
  rw [toNat_append_eq, toNat_append_eq]
  omega

theorem bit_zero_iff {x : Byte} : x.getLsbD 0 = true ↔ x.toNat % 2 = 1 := by
  rw [BitVec.getLsbD, Nat.testBit_zero, decide_eq_true_iff]

/-- A presence byte shows whether the value is there. -/
theorem presence_bit : ∀ b : Bool, (byteOf b.toNat).getLsbD 0 = b := by decide

/-- A value behind its presence byte. -/
theorem present_eq (x : Option FrameNo) :
    (if (byteOf x.isSome.toNat).getLsbD 0 then some (x.getD 0) else none) = x := by
  rw [presence_bit]
  cases x <;> rfl

/-! #### BEAT -/

theorem payload_beat_list (b : Beat) : b.payload =
    b.epoch.extractLsb' 8 8 :: b.epoch.extractLsb' 0 8 :: byteOf b.decision.isSome.toNat ::
      (b.decision.getD 0).extractLsb' 8 8 :: (b.decision.getD 0).extractLsb' 0 8 :: b.period.extractLsb' 16 8 ::
      b.period.extractLsb' 8 8 :: b.period.extractLsb' 0 8 :: [b.participants] := rfl

theorem parseBeat_payload (b : Beat) : parseBeat b.payload = b := by
  rw [payload_beat_list]
  simp only [parseBeat, byteAt, List.getD_cons_succ, List.getD_cons_zero, word16_bytes, append_bytes24, present_eq]

theorem payload_beat_numbers (b : Beat) : b.payload =
    numberBytes 2 b.epoch.toNat ++ numberBytes 1 b.decision.isSome.toNat ++ numberBytes 2 (b.decision.getD 0).toNat ++
      numberBytes 3 b.period.toNat ++ [b.participants] := by
  rw [Beat.payload, bytes16_eq, bytes16_eq, bytes24_eq, numberBytes_one]

theorem parseBeat_numbers (bs : List Byte) :
    let byte (i : Nat) : Nat := (bs.getD i 0).toNat
    parseBeat bs =
      { epoch := BitVec.ofNat 16 (256 * byte 0 + byte 1),
        decision := if byte 2 % 2 = 1 then some (BitVec.ofNat 16 (256 * byte 3 + byte 4)) else none,
        period := BitVec.ofNat 24 (65536 * byte 5 + 256 * byte 6 + byte 7),
        participants := BitVec.ofNat 8 (byte 8) } := by
  intro byte
  have last : byteAt bs 8 = BitVec.ofNat 8 (byte 8) := ofNat_toNat_eq rfl
  simp only [parseBeat, word16_number, word24_number, bit_zero_iff, last]
  rfl

/-! #### STANDING: the flag bytes -/

/-- Byte 0: ring state, lock state, role and origin-capable. -/
theorem stateByte_fields : ∀ (ring : BitVec 2) (lock : BitVec 3) (role : BitVec 2) (capable : Bool),
    let x : Byte := ring ++ lock ++ role ++ BitVec.ofBool capable
    x.getLsbD 0 = capable ∧ x.extractLsb' 1 2 = role ∧ x.extractLsb' 3 3 = lock ∧ x.extractLsb' 6 2 = ring ∧
      x.toNat = capable.toNat + 2 * role.toNat + 8 * lock.toNat + 64 * ring.toNat := by decide

/-- Byte 1: the fault flags. -/
theorem flagByte_fields : ∀ mismatch conflict : Bool,
    let x : Byte := (0#6 : BitVec 6) ++ BitVec.ofBool mismatch ++ BitVec.ofBool conflict
    x.getLsbD 0 = conflict ∧ x.getLsbD 1 = mismatch ∧ x.extractLsb' 2 6 = 0 ∧
      x.toNat = conflict.toNat + 2 * mismatch.toNat := by decide

/-- A byte read as the state of another station. -/
theorem stateByte_numbers : ∀ x : Byte,
    (x.getLsbD 0).toNat = x.toNat % 2 ∧ (x.extractLsb' 1 2).toNat = x.toNat / 2 % 4 ∧
      (x.extractLsb' 3 3).toNat = x.toNat / 8 % 8 ∧ (x.extractLsb' 6 2).toNat = x.toNat / 64 := by decide +kernel

/-- A byte read as the fault flags. -/
theorem flagByte_numbers : ∀ x : Byte, (x.extractLsb' 2 6 = 0 ↔ x.toNat < 4) ∧
    (x.toNat < 4 → (x.getLsbD 0).toNat = x.toNat % 2 ∧ (x.getLsbD 1).toNat = x.toNat / 2) := by decide +kernel

theorem roleCode (r : Role) : Role.ofCode r.code = r ∧ r.code.toNat = rolePosition r := by cases r <;> exact ⟨rfl, rfl⟩

theorem lockCode (l : Lock) : Lock.ofCode l.code = some l ∧ l.code.toNat = lockPosition l := by
  cases l <;> exact ⟨rfl, rfl⟩

theorem ringCode (r : RingState) : RingState.ofCode r.code = some r ∧ r.code.toNat = ringPosition r := by
  cases r <;> exact ⟨rfl, rfl⟩

theorem rolePosition_ofCode : ∀ x : BitVec 2, rolePosition (Role.ofCode x) = x.toNat := by decide

theorem lock_ofCode : ∀ x : BitVec 3, (5 ≤ x.toNat → Lock.ofCode x = none) ∧
    (¬ 5 ≤ x.toNat → ∃ l ∈ Lock.ofCode x, lockPosition l = x.toNat) := by decide

theorem ring_ofCode : ∀ x : BitVec 2, (x.toNat = 3 → RingState.ofCode x = none) ∧
    (¬ x.toNat = 3 → ∃ r ∈ RingState.ofCode x, ringPosition r = x.toNat) := by decide

/-! #### STANDING: the complete list -/

/-- Words that begin at an even place behind the first bytes. -/
theorem words16_append (front : List Byte) (list : List FrameNo) :
    words16 (front ++ list.flatMap bytes16) front.length list.length = list := by
  induction list generalizing front with
  | nil => rfl
  | cons f list ih =>
    have split : front ++ (f :: list).flatMap bytes16 = (front ++ bytes16 f) ++ list.flatMap bytes16 := by simp
    have place : (front ++ bytes16 f).length = front.length + 2 := by simp [bytes16]
    have rest := ih (front ++ bytes16 f)
    rw [place] at rest
    rw [List.length_cons, words16, split, rest]
    simp [byteAt, bytes16, List.getD_eq_getElem?_getD, word16_bytes]

theorem words16_eq (bs : List Byte) (i n : Nat) : words16 bs i n =
    (List.range n).map fun j => word16 (byteAt bs (i + 2 * j)) (byteAt bs (i + 1 + 2 * j)) := by
  induction n generalizing i with
  | zero => rfl
  | succ n ih =>
    have step (k j : Nat) : i + 2 + k + 2 * j = i + k + 2 * (j + 1) := by omega
    rw [words16, ih, List.range_succ_eq_map, List.map_cons, List.map_map]
    refine congrArg _ (List.map_congr_left fun j _ => ?_)
    exact congr (congrArg (fun x => word16 (byteAt bs x)) (step 0 j)) (congrArg (byteAt bs) (step 1 j))

/-- A list is not ascending exactly where a value is not later than the one before it. -/
theorem ascending_eq_false_iff (list : List FrameNo) : ascending list = false ↔
    ∃ (j : Nat) (f g : FrameNo), list[j]? = some f ∧ list[j + 1]? = some g ∧ laterThan g f = false := by
  induction list with
  | nil => simp [ascending]
  | cons f list ih =>
    cases list with
    | nil => simp [ascending]
    | cons g list =>
      have or_later : ascending (f :: g :: list) = false ↔ laterThan g f = false ∨ ascending (g :: list) = false := by
        rw [ascending, Bool.and_eq_false_iff]
      rw [or_later, ih]
      constructor
      · rintro (first | ⟨j, x, y, hx, hy, later⟩)
        · exact ⟨0, f, g, rfl, rfl, first⟩
        · exact ⟨j + 1, x, y, hx, hy, later⟩
      · rintro ⟨j, x, y, hx, hy, later⟩
        cases j with
        | zero =>
          cases hx
          cases hy
          exact .inl later
        | succ j => exact .inr ⟨j, x, y, hx, hy, later⟩

/-! #### STANDING -/

theorem payload_standing_list (x : Standing) : x.payload =
    (x.ring.code ++ x.lock.code ++ x.role.code ++ BitVec.ofBool x.capable) ::
      ((0#6 : BitVec 6) ++ BitVec.ofBool x.mismatch ++ BitVec.ofBool x.conflict) ::
      (x.shown.getD 0).extractLsb' 8 8 :: (x.shown.getD 0).extractLsb' 0 8 :: x.epoch.extractLsb' 8 8 ::
      x.epoch.extractLsb' 0 8 :: byteOf x.shown.isSome.toNat :: byteOf x.list.length :: x.list.flatMap bytes16 := rfl

theorem length_flatMap_bytes16 (list : List FrameNo) : (list.flatMap bytes16).length = 2 * list.length := by
  induction list with
  | nil => rfl
  | cons f list ih =>
    rw [List.flatMap_cons, List.length_append, ih, length_bytes16, List.length_cons]
    omega

theorem length_payload_standing (x : Standing) : x.payload.length = 8 + 2 * x.list.length := by
  have frames := length_flatMap_bytes16 x.list
  rw [payload_standing_list]
  simp only [List.length_cons]
  omega

theorem parseStanding_payload {x : Standing} (short : x.list.length ≤ 3) (order : ascending x.list = true) :
    parseStanding x.payload = some x := by
  obtain ⟨capable, role, lock, ring, -⟩ := stateByte_fields x.ring.code x.lock.code x.role.code x.capable
  obtain ⟨conflict, mismatch, unused, -⟩ := flagByte_fields x.mismatch x.conflict
  have count : (byteOf x.list.length).toNat = x.list.length :=
    (BitVec.toNat_ofNat _ _).trans (Nat.mod_eq_of_lt (by omega))
  have list : words16 x.payload 8 x.list.length = x.list := words16_append (x.payload.take 8) x.list
  have size := length_payload_standing x
  rw [payload_standing_list] at list size ⊢
  simp only [parseStanding, byteAt, List.getD_cons_succ, List.getD_cons_zero, count, list, size, capable, role, lock,
    ring, conflict, mismatch, unused, word16_bytes, present_eq, (roleCode x.role).1, (lockCode x.lock).1, (ringCode x.ring).1,
    order, short, and_self, if_true]

theorem payload_standing_numbers (x : Standing) : x.payload =
    numberBytes 1 (x.capable.toNat + 2 * rolePosition x.role + 8 * lockPosition x.lock + 64 * ringPosition x.ring) ++
      numberBytes 1 (x.conflict.toNat + 2 * x.mismatch.toNat) ++ numberBytes 2 (x.shown.getD 0).toNat ++
      numberBytes 2 x.epoch.toNat ++ numberBytes 1 x.shown.isSome.toNat ++ numberBytes 1 x.list.length ++
      x.list.flatMap (fun f => numberBytes 2 f.toNat) := by
  obtain ⟨-, -, -, -, state⟩ := stateByte_fields x.ring.code x.lock.code x.role.code x.capable
  obtain ⟨-, -, -, flags⟩ := flagByte_fields x.mismatch x.conflict
  rw [(roleCode x.role).2, (lockCode x.lock).2, (ringCode x.ring).2] at state
  rw [numberBytes_of_toNat state, numberBytes_of_toNat flags, numberBytes_one, numberBytes_one, ← bytes16_eq,
    ← bytes16_eq, ← bytes16_fun]
  rfl

/-- What the content check of R49 refuses, in the bytes of the payload. -/
def StandingRefused (bs : List Byte) : Prop :=
  let byte (i : Nat) : Nat := (bs.getD i 0).toNat
  let frames : List FrameNo :=
    (List.range (byte 7)).map fun j => BitVec.ofNat 16 (256 * byte (8 + 2 * j) + byte (9 + 2 * j))
  bs.length ≠ 8 + 2 * byte 7 ∨ 3 < byte 7 ∨ 5 ≤ byte 0 / 8 % 8 ∨ byte 0 / 64 = 3 ∨ 4 ≤ byte 1 ∨
    ∃ (j : Nat) (f g : FrameNo), frames[j]? = some f ∧ frames[j + 1]? = some g ∧ laterThan g f = false

theorem words16_numbers (bs : List Byte) (n : Nat) : words16 bs 8 n =
    (List.range n).map fun j =>
      BitVec.ofNat 16 (256 * (bs.getD (8 + 2 * j) 0).toNat + (bs.getD (9 + 2 * j) 0).toNat) := by
  rw [words16_eq]
  exact List.map_congr_left fun j _ => word16_number _ _

theorem or_not_and {P Q R S L T : Prop} : ¬ Q ∨ ¬ P ∨ L ∨ T ∨ ¬ R ∨ ¬ S ↔ ¬ (P ∧ Q ∧ R ∧ S) ∨ L ∨ T := by tauto

/-- The content check passes where the payload has the right length, codes, flags and order. -/
theorem standingRefused_iff (bs : List Byte) : StandingRefused bs ↔
    ¬ ((byteAt bs 7).toNat ≤ 3 ∧ bs.length = 8 + 2 * (byteAt bs 7).toNat ∧ (byteAt bs 1).extractLsb' 2 6 = 0 ∧
        ascending (words16 bs 8 (byteAt bs 7).toNat) = true) ∨
      5 ≤ ((byteAt bs 0).extractLsb' 3 3).toNat ∨ ((byteAt bs 0).extractLsb' 6 2).toNat = 3 := by
  obtain ⟨-, -, lock, ring⟩ := stateByte_numbers (byteAt bs 0)
  obtain ⟨flags, -⟩ := flagByte_numbers (byteAt bs 1)
  have order := ascending_eq_false_iff (words16 bs 8 (byteAt bs 7).toNat)
  rw [words16_numbers] at order
  have written : StandingRefused bs ↔ bs.length ≠ 8 + 2 * (byteAt bs 7).toNat ∨ 3 < (byteAt bs 7).toNat ∨
      5 ≤ (byteAt bs 0).toNat / 8 % 8 ∨ (byteAt bs 0).toNat / 64 = 3 ∨ 4 ≤ (byteAt bs 1).toNat ∨
        ¬ ascending (words16 bs 8 (byteAt bs 7).toNat) = true := by
    rw [words16_numbers, Bool.not_eq_true, order]
    exact Iff.rfl
  have count : 3 < (byteAt bs 7).toNat ↔ ¬ (byteAt bs 7).toNat ≤ 3 := by omega
  have flagged : 4 ≤ (byteAt bs 1).toNat ↔ ¬ (byteAt bs 1).toNat < 4 := by omega
  rw [written, lock, ring, flags, count, flagged]
  exact or_not_and

theorem parseStanding_of_refused (refused : StandingRefused bs) : parseStanding bs = none := by
  unfold parseStanding
  dsimp only
  rcases (standingRefused_iff bs).1 refused with content | lock | ring
  · split
    · exact if_neg content
    · rfl
  · rw [(lock_ofCode _).1 lock]
  · rw [(ring_ofCode _).1 ring]
    cases Lock.ofCode ((byteAt bs 0).extractLsb' 3 3) <;> rfl

/-- What a STANDING that passes the content check says. -/
theorem parseStanding_of_accepted (accepted : ¬ StandingRefused bs) :
    let byte (i : Nat) : Nat := (bs.getD i 0).toNat
    ∃ x, parseStanding bs = some x ∧ x.capable.toNat = byte 0 % 2 ∧
      rolePosition x.role = byte 0 / 2 % 4 ∧ lockPosition x.lock = byte 0 / 8 % 8 ∧
      ringPosition x.ring = byte 0 / 64 ∧ x.conflict.toNat = byte 1 % 2 ∧ x.mismatch.toNat = byte 1 / 2 ∧
      x.shown = (if byte 6 % 2 = 1 then some (BitVec.ofNat 16 (256 * byte 2 + byte 3)) else none) ∧
      x.epoch.toNat = 256 * byte 4 + byte 5 ∧
      x.list =
        (List.range (byte 7)).map fun j => BitVec.ofNat 16 (256 * byte (8 + 2 * j) + byte (9 + 2 * j)) := by
  intro byte
  obtain ⟨passes, codes⟩ := not_or.1 (mt (standingRefused_iff bs).2 accepted)
  obtain ⟨low, not_three⟩ := not_or.1 codes
  have content := not_not.1 passes
  obtain ⟨l, lock, lock_code⟩ := (lock_ofCode _).2 low
  obtain ⟨r, ring, ring_code⟩ := (ring_ofCode _).2 not_three
  obtain ⟨capable, role, lock_number, ring_number⟩ := stateByte_numbers (byteAt bs 0)
  obtain ⟨flags, flag_numbers⟩ := flagByte_numbers (byteAt bs 1)
  obtain ⟨conflict, mismatch⟩ := flag_numbers (flags.1 content.2.2.1)
  have parsed : parseStanding bs = some
      { capable := (byteAt bs 0).getLsbD 0, role := Role.ofCode ((byteAt bs 0).extractLsb' 1 2), lock := l, ring := r,
        conflict := (byteAt bs 1).getLsbD 0, mismatch := (byteAt bs 1).getLsbD 1,
        shown := if (byteAt bs 6).getLsbD 0 then some (word16 (byteAt bs 2) (byteAt bs 3)) else none,
        epoch := word16 (byteAt bs 4) (byteAt bs 5), list := words16 bs 8 (byteAt bs 7).toNat } := by
    unfold parseStanding
    dsimp only
    rw [lock, ring]
    exact if_pos content
  refine ⟨_, parsed, capable, (rolePosition_ofCode _).trans role, lock_code.trans lock_number,
    ring_code.trans ring_number, conflict, mismatch, ?_, toNat_word16 _ _, words16_numbers bs _⟩
  exact if_congr bit_zero_iff (congrArg some (word16_number _ _)) rfl

end Sys2Proof

/-! ### The CRC, the symbols and what is sent (13.2, 13.5, R190, R192) -/

namespace Sys2Proof

open Sys2Proof.Machine

/-! #### The CRC -/

/-- 0x1021 is combined where the bit that left differs from the data bit. -/
theorem crcBit_eq (r : BitVec 16) (d : Bool) :
    crcBit r d = if r.getLsbD 15 = d then r <<< 1 else (r <<< 1) ^^^ 0x1021#16 := by
  unfold crcBit
  cases r.getLsbD 15 <;> cases d <;> rfl

theorem crc16_append_byte (p : List Byte) (b : Byte) : crc16 (p ++ [b]) =
    [7, 6, 5, 4, 3, 2, 1, 0].foldl
      (fun (r : BitVec 16) i => if r.getLsbD 15 = b.getLsbD i then r <<< 1 else (r <<< 1) ^^^ 0x1021#16)
      (crc16 p) := by
  rw [crc16, List.foldl_append, List.foldl_cons, List.foldl_nil, crcByte]
  simp only [crcBit_eq]
  rfl

theorem crcGood_append (p : List Byte) (x y : Byte) : crcGood p.length (p ++ [x, y]) = decide (crc16 p = x ++ y) := by
  have high : byteAt (p ++ [x, y]) p.length = x := by simp [byteAt, List.getD_eq_getElem?_getD]
  have low : byteAt (p ++ [x, y]) (p.length + 1) = y := by simp [byteAt, List.getD_eq_getElem?_getD]
  rw [crcGood, List.take_left, high, low]
  rfl

theorem crcGood_bytes16 (p : List Byte) : crcGood p.length (p ++ bytes16 (crc16 p)) = true := by
  have good := crcGood_append p ((crc16 p).extractLsb' 8 8) ((crc16 p).extractLsb' 0 8)
  exact good.trans (decide_eq_true (word16_bytes (crc16 p)).symm)

/-! #### Symbols -/

theorem serial_data (b : Byte) : (LineSymbol.data b).serial =
    [false, true, b.getLsbD 0, b.getLsbD 1, b.getLsbD 2, b.getLsbD 3, b.getLsbD 4, b.getLsbD 5, b.getLsbD 6,
      b.getLsbD 7] := by
  simp [LineSymbol.serial, serialBits, sendSymbol, List.range_succ]

/-- Every symbol is taken as what was sent. -/
theorem receiveSerial_serial (x : LineSymbol) : receiveSerial x.serial = x := by
  rw [LineSymbol.serial, receiveSerial_serialBits]
  cases x <;> rfl

/-! #### RING OUT and the return lane -/

/-- Bytes as symbols, bit by bit. -/
theorem flatMap_serial_data (bs : List Byte) :
    (bs.map LineSymbol.data).flatMap LineSymbol.serial = bs.flatMap fun b => (LineSymbol.data b).serial :=
  List.flatMap_map _ _ _

variable {s : State}

theorem ringOutBits_of_sending {x : Sending} (sending : s.ringOut.sending = some x) : s.ringOutBits =
    LineSymbol.startMarker.serial ++ (x.bytes.flatMap fun b => (LineSymbol.data b).serial) ++ LineSymbol.fill.serial := by
  rw [State.ringOutBits, State.ringOutSymbols, sending]
  simp only [List.flatMap_append, flatMap_serial_data, List.flatMap_singleton]

theorem ringOutBits_of_idle (idle : s.ringOut.sending = none) : s.ringOutBits = LineSymbol.fill.serial := by
  rw [State.ringOutBits, State.ringOutSymbols, idle]
  rfl

theorem returnLaneBits_of_sending {r : Report} (sending : s.report.sending = some r) : s.returnLaneBits =
    LineSymbol.startMarker.serial ++ r.bytes.flatMap fun b => (LineSymbol.data b).serial := by
  rw [State.returnLaneBits, State.returnLaneSymbols, sending]
  simp only [List.flatMap_append, flatMap_serial_data, List.flatMap_singleton]

theorem returnLaneBits_of_idle (idle : s.report.sending = none) : s.returnLaneBits = LineSymbol.fill.serial := by
  rw [State.returnLaneBits, State.returnLaneSymbols, idle]
  rfl

/-! #### REPORT packets -/

/-- Behind the flags, a REPORT's A field holds the number of its page. -/
theorem reportPage_numbers (k : ReportKind) : ∀ unavailable truncated : Bool,
    bytes16 ((0#6 : BitVec 6) ++ BitVec.ofBool unavailable ++ BitVec.ofBool truncated ++ byteOf k.code) =
      numberBytes 1 (truncated.toNat + 2 * unavailable.toNat) ++
        numberBytes 1 (1 + position [.ident, .link, .ingest, .slots, .roster, .timing, .present, .ring] k) := by
  cases k <;> decide

theorem reportIndex_bytes (r : Report) : bytes16 r.header.b =
    match r.nextIndex with
      | some i => [0, i]
      | none => [0xFF, 0xFF] := by
  unfold Report.header
  cases r.nextIndex with
  | none => exact (by decide : bytes16 0xFFFF#16 = [0xFF, 0xFF])
  | some i =>
    have low : ((0#8 : BitVec 8) ++ i).extractLsb' 0 8 = i := extract_eq fun j hj => by
      rw [BitVec.getLsbD_append, Nat.zero_add, if_pos hj]
    have high : ((0#8 : BitVec 8) ++ i).extractLsb' 8 8 = 0 := extract_eq fun j hj => by
      rw [BitVec.getLsbD_append, if_neg (by omega), BitVec.getLsbD_zero]
      exact BitVec.getLsbD_zero.symm
    exact congrArg₂ (fun a b => [a, b]) high low

theorem unpackHeader_report (r : Report) (short : r.payload.length < 16384) : unpackHeader r.header.bits =
    [0x30] ++ numberBytes 1 (r.truncated.toNat + 2 * r.unavailable.toNat) ++
      numberBytes 1 (1 + position [.ident, .link, .ingest, .slots, .roster, .timing, .present, .ring] r.kind) ++
      (match r.nextIndex with
        | some i => [0, i]
        | none => [0xFF, 0xFF]) ++
      numberBytes 2 r.payload.length := by
  have page : bytes16 r.header.a = _ := reportPage_numbers r.kind r.unavailable r.truncated
  have length : r.header.length.toNat = r.payload.length := (BitVec.toNat_ofNat _ _).trans (Nat.mod_eq_of_lt short)
  rw [linkBits_numbers, ← bytes16_eq, ← bytes16_eq, page, reportIndex_bytes, length]
  simp only [List.append_assoc]
  rfl

theorem take_reportBytes (r : Report) : r.bytes.take 7 = unpackHeader r.header.bits := rfl

theorem drop_reportBytes (r : Report) :
    r.bytes.drop 8 = if r.payload = [] then [] else r.payload ++ numberBytes 2 (crc16 r.payload).toNat := by
  rw [← bytes16_eq]
  rfl

/-- Settles O49, by a lemma for each format: headers, payloads, CRC, symbols, and the bytes of what is sent. -/
theorem packetRoundTrip : Obligations.PacketRoundTrip := by
  unfold Obligations.PacketRoundTrip
  refine ⟨⟨fun h => ⟨ringHeader_bits h, ringBits_numbers h⟩, fun l => ⟨linkHeader_bits l, linkBits_numbers l⟩,
      fun b => ⟨packHeader_unpackHeader b, bits_ringHeader b, fun _ => getLsbD_bits_linkHeader b⟩⟩,
    ⟨fun b => ⟨parseBeat_payload b, payload_beat_numbers b⟩, parseBeat_numbers,
      fun x short order => ⟨parseStanding_payload short order, length_payload_standing x, payload_standing_numbers x⟩,
      fun bs => ⟨parseStanding_of_refused, parseStanding_of_accepted⟩⟩,
    ⟨rfl, crc16_append_byte, by decide +kernel, crcGood_append, crcGood_bytes16⟩,
    ⟨serial_data, rfl, rfl, receiveSerial_serial, receiveSerial_serialBits⟩,
    ⟨fun s => ⟨fun _ => ringOutBits_of_sending, ringOutBits_of_idle, fun _ => returnLaneBits_of_sending,
        returnLaneBits_of_idle⟩,
      fun _ _ _ _ => ⟨ringOutBits_of_idle rfl, returnLaneBits_of_idle rfl⟩,
      fun r short => ⟨(take_reportBytes r).trans (unpackHeader_report r short), drop_reportBytes r⟩⟩⟩

end Sys2Proof

/-! ### Transfers (R161 to R163, R166) -/

namespace Sys2Proof

open Sys2Proof.Machine

variable {s : State} {e : Elapsed} {c : Settings} {m : List Host.Cell} {pixels : List Pixel} {slot line : Nat}

/-! #### Lines in the frame memory -/

/-- Byte `d` of pixel `j`. -/
theorem getElem?_flatMap_pixelBytes {j d : Nat} {p : Pixel} (hp : pixels[j]? = some p) (hd : d < 3) :
    (pixels.flatMap pixelBytes)[3 * j + d]? = (pixelBytes p)[d]? := by
  induction pixels generalizing j with
  | nil => exact nomatch hp
  | cons q pixels ih =>
    have three : (pixelBytes q).length = 3 := rfl
    rw [List.flatMap_cons]
    cases j with
    | zero =>
      cases hp
      rw [Nat.mul_zero, Nat.zero_add, List.getElem?_append_left (hd.trans_eq three.symm)]
    | succ j =>
      rw [List.getElem?_append_right (by omega), three, show 3 * (j + 1) + d - 3 = 3 * j + d by omega]
      exact ih hp

theorem lineBytes_of_length {w : Nat} (whole : pixels.length = w) : lineBytes w pixels = pixels.flatMap pixelBytes := by
  rw [lineBytes, ← whole, List.take_left]

/-- A written line reads as its pixels, red first. -/
theorem read_writeLine_inside (whole : pixels.length = c.w) {j d : Nat} {p : Pixel} {x : Byte} (hp : pixels[j]? = some p)
    (hd : d < 3) (hx : (pixelBytes p)[d]? = some x) :
    Memory.read (Memory.writeLine c m slot line pixels) (c.lineAddress slot line + (3 * j + d)) = x := by
  have place : (lineBytes c.w pixels)[3 * j + d]? = some x := by
    rw [lineBytes_of_length whole, getElem?_flatMap_pixelBytes hp hd, hx]
  obtain ⟨inside, rfl⟩ := List.getElem?_eq_some_iff.1 place
  exact Memory.read_write_inside inside

theorem read_writeLine_outside {a : Nat} (out : a < c.lineAddress slot line ∨ c.lineAddress slot line + c.w * 3 ≤ a) :
    Memory.read (Memory.writeLine c m slot line pixels) a = Memory.read m a :=
  Memory.read_write_of_outside (by rwa [length_lineBytes])

theorem insertLine_sorted {n : Nat} {lines : List Nat} (sorted : lines.Pairwise (· < ·)) :
    (insertLine n lines).Pairwise (· < ·) := by
  induction lines with
  | nil => exact List.pairwise_singleton _ _
  | cons m lines ih =>
    obtain ⟨least, rest⟩ := List.pairwise_cons.1 sorted
    unfold insertLine
    split
    · next before => exact List.pairwise_cons.2 ⟨List.forall_mem_cons.2 ⟨before, fun l hl => before.trans (least l hl)⟩, sorted⟩
    · split
      · exact sorted
      · refine List.pairwise_cons.2 ⟨fun l hl => ?_, ih rest⟩
        rcases mem_insertLine.1 hl with rfl | hl
        · omega
        · exact least l hl

/-! #### The completion of a transfer -/

theorem exec_transferComplete_of_inside {t : Transfer} (awake : s.held = false) (transfer : (s.elapse e).transfer = some t)
    (settled : (s.elapse e).loader.settled = some c) (inside : t.inside c = true) :
    exec (.transferComplete e) s = .next ((s.elapse e).transferDone c t) := by
  have run : exec (.transferComplete e) s = execTransferComplete e s := rfl
  rw [run, execTransferComplete, awake, transfer, settled]
  exact if_pos inside

/-- Settles O29: a write is stored, recorded at its slot and followed by a grant; the slot's record by its state. -/
theorem writeCompletionStoresLine : Obligations.WriteCompletionStoresLine := by
  refine ⟨fun e c w s awake transfer settled whole => ?_, fun pin i line r m hi => ?_, fun n lines =>
    ⟨fun l => mem_insertLine, insertLine_sorted⟩⟩
  · intro b first inside
    let stored : State :=
      { b with
        transfer := none, mem := Memory.writeLine c b.mem w.slot w.line w.pixels,
        slots := b.slots.writeDone (b.presentation.decision.map Decision.frame) w.slot w.line }
    have done : b.transferDone c (.write w) = stored.grant := rfl
    have granted := grant_eq (s := stored)
    refine ⟨stored.grant, ?_, fun a out => ?_, fun j p hp => ⟨?_, ?_, ?_⟩, congrArg State.slots granted,
      congrArg State.ingest granted, congrArg State.scan granted, granted_grant (s := stored), ?_⟩
    · exact exec_transferComplete_of_inside awake transfer settled (decide_eq_true inside)
    · rw [granted]
      exact read_writeLine_outside out
    · rw [granted]
      exact read_writeLine_inside whole hp (by decide : 0 < 3) rfl
    · rw [granted]
      exact read_writeLine_inside whole hp (by decide : 1 < 3) rfl
    · rw [granted]
      exact read_writeLine_inside whole hp (by decide : 2 < 3) rfl
    · rw [← done]
      exact (Frame.transferDone b c (.write w)).mono (by decide)
  · intro done
    refine ⟨writeDone_of_filling hi, writeDone_of_closing hi, fun closes last room => ?_,
      fun f k closes last full oldest => ?_, writeDone_of_draining hi⟩
    · obtain ⟨j, q, apart, hj, other⟩ := room
      exact (writeDone_of_last hi closes last.le).trans (completed_of_room apart hj other)
    · exact (writeDone_of_last hi closes last.le).trans (completed_of_full full oldest)

end Sys2Proof

/-! ### The completion of a fetch (R166) -/

namespace Sys2Proof

open Sys2Proof.Machine

variable {s : State} {e : Elapsed} {c : Settings} {u : ScanOut} {r : FetchRecord} {b : Fin 2} {x : LineBuffer}
  {pixels : List Pixel}

/-- The line buffer that `b` does not name. -/
def otherBuffer (b : Fin 2) (u : ScanOut) : LineBuffer := if b = 0 then u.odd else u.even

theorem buffer_setBuffer : (u.setBuffer b x).buffer b = x := by
  unfold ScanOut.buffer ScanOut.setBuffer
  split <;> rfl

theorem otherBuffer_setBuffer : otherBuffer b (u.setBuffer b x) = otherBuffer b u := by
  unfold otherBuffer ScanOut.setBuffer
  split <;> rfl

/-- A buffer is set beside everything but the two buffers. -/
theorem setBuffer_eq : u.setBuffer b x = { u with even := (u.setBuffer b x).even, odd := (u.setBuffer b x).odd } := by
  unfold ScanOut.setBuffer
  split <;> rfl

/-- The line buffers after a fetch, and what they say. -/
theorem fetchDone_of_stored (found : u.records.find? (fun x => x.inProgress) = some r) (fresh : r.stale = false)
    (waits : (u.buffer r.buffer).line = some r.line) : u.fetchDone pixels =
      { ({ u with records := u.records.erase r } : ScanOut).setBuffer r.buffer ⟨some r.line, true, pixels⟩ with
        fetches := bump u.fetches } := by
  simp [ScanOut.fetchDone, found, fresh, waits]

theorem fetchDone_of_discarded (found : u.records.find? (fun x => x.inProgress) = some r)
    (unwanted : r.stale = true ∨ (u.buffer r.buffer).line ≠ some r.line) : u.fetchDone pixels =
      { u with records := u.records.erase r, staleFetch := bump u.staleFetch } := by
  have discards : (!r.stale && (u.buffer r.buffer).line == some r.line) = false := by
    rcases unwanted with stale | other
    · simp [stale]
    · simp [other]
  simp [ScanOut.fetchDone, found, discards]

/-- A completed fetch touches the records, the counters and its buffer. -/
theorem fetchDone_keeps (found : u.records.find? (fun x => x.inProgress) = some r) :
    let t := u.fetchDone pixels
    t.records = u.records.erase r ∧ otherBuffer r.buffer t = otherBuffer r.buffer u ∧ t.slot = u.slot ∧
      t.output = u.output ∧ t.underrun = u.underrun ∧ t.cutFrames = u.cutFrames := by
  intro t
  by_cases wanted : r.stale = false ∧ (u.buffer r.buffer).line = some r.line
  · have stored : t = _ := fetchDone_of_stored found wanted.1 wanted.2
    have beside : otherBuffer r.buffer t = otherBuffer r.buffer u :=
      (congrArg (otherBuffer r.buffer) stored).trans otherBuffer_setBuffer
    refine ⟨?_, beside, ?_, ?_, ?_, ?_⟩ <;> rw [stored, setBuffer_eq]
  · have discarded : t = _ := fetchDone_of_discarded found (by simpa [imp_iff_not_or] using wanted)
    rw [discarded]
    exact ⟨rfl, rfl, rfl, rfl, rfl, rfl⟩

theorem scan_grant : s.grant.scan = { s.scan with records := s.grant.scan.records } := congrArg State.scan grant_eq

theorem ingest_grant : s.grant.ingest = { s.ingest with queue := s.grant.ingest.queue } :=
  congrArg State.ingest grant_eq

/-- Pixel `j` of a line read from the frame memory. -/
theorem readLine_pixel {m : List Host.Cell} {slot line j : Nat} {p : Pixel} (hp : (Memory.readLine c m slot line)[j]? = some p) :
    p = pixelOf (Memory.read m (c.lineAddress slot line + 3 * j)) (Memory.read m (c.lineAddress slot line + 3 * j + 1))
      (Memory.read m (c.lineAddress slot line + 3 * j + 2)) := by
  rw [Memory.readLine, List.getElem?_map, Option.map_eq_some_iff] at hp
  obtain ⟨k, hk, rfl⟩ := hp
  obtain ⟨-, rfl⟩ := List.getElem?_eq_some_iff.1 hk
  rw [List.getElem_range]

/-- Settles O30: the fetch reaches its buffer or is discarded, and its record is gone before the next grant. -/
theorem fetchCompletionFillsBuffer : Obligations.FetchCompletionFillsBuffer := by
  intro e c slot line r s awake transfer settled inside found b first buffer other
  let pixels := Memory.readLine c b.mem slot line
  let done := b.scan.fetchDone pixels
  let stored : State := (b.setTransfer none).setScan done
  have granted : stored.grant.scan = { done with records := stored.grant.scan.records } := scan_grant
  obtain ⟨records, beside, scan_slot, output, underrun, cut⟩ := fetchDone_keeps (pixels := pixels) found
  have next : Granted done.slot none done.records b.ingest.queue stored.grant := granted_grant (s := stored)
  rw [records, scan_slot] at next
  have frame : Frame [.ingest, .transfer, .scan] b stored.grant :=
    ((Frame.setTransfer b none).mono (by decide)).trans (((Frame.setScan _ done).mono (by decide)).trans (.grant stored))
  refine ⟨stored.grant, exec_transferComplete_of_inside awake transfer settled (decide_eq_true inside),
    fun fresh waits => ?_, fun unwanted => ?_, ?_, ?_, ?_, ?_, ?_, ingest_grant, next, frame⟩
  · have filled : done = _ := fetchDone_of_stored found fresh waits
    have counted : done.fetches = bump b.scan.fetches ∧ done.staleFetch = b.scan.staleFetch := by
      rw [filled, setBuffer_eq]
      exact ⟨rfl, rfl⟩
    have holds : buffer stored.grant = ⟨some r.line, true, pixels⟩ := by
      have kept : stored.grant.scan.buffer r.buffer = done.buffer r.buffer := by
        rw [granted]
        rfl
      refine kept.trans ?_
      rw [filled]
      exact buffer_setBuffer
    rw [holds, granted]
    refine ⟨counted.1, counted.2, rfl, rfl, by simp [pixels, Memory.readLine], fun j p hp => readLine_pixel hp⟩
  · have dropped : done = _ := fetchDone_of_discarded found unwanted
    rw [granted]
    change done.staleFetch = _ ∧ done.fetches = _ ∧ done.even = _ ∧ done.odd = _
    rw [dropped]
    exact ⟨rfl, rfl, rfl, rfl⟩
  · have kept : otherBuffer r.buffer stored.grant.scan = otherBuffer r.buffer done := by
      rw [granted]
      rfl
    exact kept.trans beside
  · rw [granted]; exact scan_slot
  · rw [granted]; exact output
  · rw [granted]; exact underrun
  · rw [granted]; exact cut

end Sys2Proof

/-! ### Line starts and the panel port (R165, R168, R170) -/

namespace Sys2Proof

open Sys2Proof.Machine

variable {s : State} {e : Elapsed} {c : Settings} {u : ScanOut} {k f : Nat} {x : LineBuffer}

/-! #### Line buffers and requests -/

theorem buffer_bufferOf : u.buffer (bufferOf k) = if k % 2 = 0 then u.even else u.odd := by
  unfold ScanOut.buffer bufferOf
  split <;> rfl

theorem setBuffer_bufferOf : u.setBuffer (bufferOf k) x =
    { u with even := if k % 2 = 0 then x else u.even, odd := if k % 2 = 0 then u.odd else x } := by
  unfold ScanOut.setBuffer bufferOf
  split <;> rfl

/-- A request takes its buffer, and joins the records where a scan slot is present. -/
theorem request_eq : u.request k =
    { u with
      even := if k % 2 = 0 then ⟨some k, false, []⟩ else u.even,
      odd := if k % 2 = 0 then u.odd else ⟨some k, false, []⟩,
      records := if u.slot = none then u.records else u.records ++ [⟨k, bufferOf k, false, false⟩] } := by
  unfold ScanOut.request
  rw [setBuffer_bufferOf]
  cases u.slot <;> rfl

/-- What the records are granted for after a request. -/
theorem requestFetch_spec : let t := s.requestFetch k
    t.scan = { s.scan.request k with records := t.scan.records } ∧ t.ingest = { s.ingest with queue := t.ingest.queue } ∧
      Granted s.scan.slot s.transfer
        (if s.scan.slot = none then s.scan.records else s.scan.records ++ [⟨k, bufferOf k, false, false⟩])
        s.ingest.queue t := by
  intro t
  let requested := s.setScan (s.scan.request k)
  have granted : Granted (s.scan.request k).slot s.transfer (s.scan.request k).records s.ingest.queue t :=
    granted_grant (s := requested)
  refine ⟨scan_grant (s := requested), ingest_grant (s := requested), ?_⟩
  simpa only [request_eq] using granted

/-- The line start of active line `k`. -/
theorem takeLine_eq :
    let b := if k % 2 = 0 then u.even else u.odd
    let ready : Prop := b.line = some k ∧ b.valid = true
    u.takeLine k =
      { u with
        even := if k % 2 = 0 then .released else u.even, odd := if k % 2 = 0 then u.odd else .released,
        output := if ready then .pixels b.pixels else .background,
        underrun := if ready ∨ u.slot = none then u.underrun else bump u.underrun,
        records := if ready ∨ u.slot = none then u.records else clearFetch k u.records } := by
  intro b ready
  unfold ScanOut.takeLine
  rw [buffer_bufferOf, setBuffer_bufferOf]
  by_cases full : ready
  · have output : ready ∨ u.slot = none := .inl full
    simp only [if_pos full, if_pos output]
    exact if_pos full
  · dsimp only
    rw [if_neg full]
    cases slot : u.slot with
    | none => simp [full]
    | some i => simp [full]

/-- The line after next is fetched into the buffer that a line start releases. -/
theorem request_takeLine (records : List FetchRecord) :
    let b := if k % 2 = 0 then u.even else u.odd
    let ready : Prop := b.line = some k ∧ b.valid = true
    ({ (u.takeLine k).request (k + 2) with records := records } : ScanOut) =
      { u with
        even := if k % 2 = 0 then ⟨some (k + 2), false, []⟩ else u.even,
        odd := if k % 2 = 0 then u.odd else ⟨some (k + 2), false, []⟩,
        output := if ready then .pixels b.pixels else .background,
        underrun := if ready ∨ u.slot = none then u.underrun else bump u.underrun, records := records } := by
  intro b ready
  rw [request_eq, takeLine_eq, Nat.add_mod_right]
  by_cases even : k % 2 = 0
  · simp only [if_pos even, ready, b]
  · simp only [if_neg even, ready, b]

theorem clearFetch_eq (k : Nat) (records : List FetchRecord) : clearFetch k records =
    records.filterMap fun r =>
      if r.line = k ∧ r.buffer = (if k % 2 = 0 then 0 else 1) ∧ r.stale = false then
        if r.inProgress = true then some { r with stale := true } else none
      else some r := by
  unfold clearFetch
  congr 1
  funext r
  refine if_congr ?_ rfl rfl
  simp [bufferOf, and_assoc]

/-! #### The start of a line -/

theorem beginLine_of_blank (before : f + 2 < c.vb) : s.beginLine c f = s := by
  unfold State.beginLine
  rw [if_pos (by omega), if_neg (by omega), if_neg (by omega)]

theorem beginLine_of_first (two : k < 2) (place : f + 2 = c.vb + k) : s.beginLine c f = s.requestFetch k := by
  unfold State.beginLine
  rw [if_pos (by omega)]
  interval_cases k
  · exact if_pos place
  · rw [if_neg (by omega)]
    exact if_pos (by omega)

theorem beginLine_of_active (place : f = c.vb + k) (inside : k < c.h) : s.beginLine c f =
    if k + 2 < c.h then (s.setScan (s.scan.takeLine k)).requestFetch (k + 2) else s.setScan (s.scan.takeLine k) := by
  have line : f - c.vb = k := by omega
  unfold State.beginLine
  rw [if_neg (by omega), if_pos (by omega), line]

theorem beginLine_of_past (past : c.vb + c.h ≤ f) : s.beginLine c f = s.setScan { s.scan with output := .background } := by
  unfold State.beginLine
  rw [if_neg (by omega), if_neg (by omega)]

theorem ingest_beginLine : (s.beginLine c f).ingest = { s.ingest with queue := (s.beginLine c f).ingest.queue } := by
  have requested (u : State) (k : Nat) :
      (u.requestFetch k).ingest = { u.ingest with queue := (u.requestFetch k).ingest.queue } := requestFetch_spec.2.1
  unfold State.beginLine
  split
  · split
    · exact requested s 0
    · split
      · exact requested s 1
      · rfl
  · split
    · dsimp only
      split
      · exact requested _ _
      · rfl
    · rfl

/-- Station time goes on to the start of the next line, which the timer then holds. -/
theorem exec_lineStart_of_due {timer : FrameTimer} (awake : s.held = false) (settled : (s.elapse e).loader.settled = some c)
    (runs : (s.elapse e).timing.timer = some timer)
    (due : (timer.line + 1) * c.lineTicks < (timer.next - timer.last).toNat) :
    let b := s.elapse e
    exec (.lineStart e) s = .next (State.beginLine c (timer.line + 1)
      { b with
        now :=
          if (b.now - timer.last).toNat < (timer.line + 1) * c.lineTicks then
            timer.last + BitVec.ofNat 32 ((timer.line + 1) * c.lineTicks)
          else b.now,
        timing := { b.timing with timer := some { timer with line := timer.line + 1 } } }) := by
  intro b
  have run : exec (.lineStart e) s = .next b.nextLine := onEvent_of_running State.nextLine awake
  rw [run, State.nextLine, settled, runs]
  dsimp only
  have before : (timer.line + 1) * c.lineTicks < ticksFrom timer.last timer.next := due
  rw [if_pos before]
  unfold ticksFrom
  split <;> rfl

/-! #### The panel port -/

theorem panel_of_running {timer : FrameTimer} (settled : s.loader.settled = some c) (runs : s.timing.timer = some timer)
    (part : Nat) : s.panel part =
      panelAt c s.scan.output timer.line (((s.now - timer.last).toNat - timer.line * c.lineTicks) * c.w + part) := by
  rw [State.panel, settled, runs]
  rfl

theorem panel_of_idle (idle : s.loader.settled = none ∨ s.timing.timer = none) (part : Nat) :
    s.panel part = ⟨false, false, false, false, 0⟩ := by
  unfold State.panel
  rcases idle with h | h
  · rw [h]
  · rw [h]
    cases s.loader.settled <;> rfl

theorem sent_background : OutputLine.background.sent c = List.replicate c.w c.background := by
  simp [OutputLine.sent, OutputLine.pixel]

theorem sent_pixels {pixels : List Pixel} (whole : pixels.length = c.w) : (OutputLine.pixels pixels).sent c = pixels := by
  refine List.ext_getElem (by simp [OutputLine.sent, whole]) fun j _ hj => ?_
  simp [OutputLine.sent, OutputLine.pixel, hj]

/-- Settles O28: the line's start by the kind of its frame line, and the port from the part of the line that has passed. -/
theorem lineStartOutputsLine : Obligations.LineStartOutputsLine := by
  refine ⟨fun e c timer s awake settled runs due => ?_, fun c timer part s settled runs => ?_,
    fun part s idle => panel_of_idle idle part, fun c pixels => ⟨sent_background, sent_pixels⟩⟩
  · intro b requested
    let u : State :=
      { b with
        now :=
          if (b.now - timer.last).toNat < (timer.line + 1) * c.lineTicks then
            timer.last + BitVec.ofNat 32 ((timer.line + 1) * c.lineTicks)
          else b.now,
        timing := { b.timing with timer := some { timer with line := timer.line + 1 } } }
    let t : State := u.beginLine c (timer.line + 1)
    have run : exec (.lineStart e) s = .next t := exec_lineStart_of_due awake settled runs due
    have begun : Frame [.ingest, .transfer, .scan] u t := .beginLine u c _
    have moved : Frame [.now, .timing, .ingest, .transfer, .scan] b u :=
      ((Frame.setNow b u.now).mono (by decide)).trans ((Frame.setTiming _ u.timing).mono (by decide))
    refine ⟨t, run, (begun.2 .timing (by decide)).symm, (begun.2 .now (by decide)).symm, ingest_beginLine,
      moved.trans (begun.mono (by decide)), fun k place inside => ?_, fun k two place => ?_, fun blank => ?_, fun past => ?_⟩
    · intro x ready next kept
      have line : t = _ := beginLine_of_active (s := u) place inside
      have taken : u.scan.takeLine k = _ := takeLine_eq
      rw [clearFetch_eq] at taken
      have records : (u.scan.takeLine k).records = kept := (congrArg ScanOut.records taken :)
      have slot : (u.scan.takeLine k).slot = b.scan.slot := (congrArg ScanOut.slot taken :)
      by_cases more : k + 2 < c.h
      · have after : next = ⟨some (k + 2), false, []⟩ := by simp only [next, if_pos more]
        obtain ⟨scan, -, granted⟩ := requestFetch_spec (s := u.setScan (u.scan.takeLine k)) (k := k + 2)
        rw [if_pos more] at line
        rw [← line] at scan granted
        rw [State.setScan_scan, slot, records] at granted
        rw [after]
        exact ⟨scan.trans (request_takeLine _), fun _ => granted, fun last => absurd more (Nat.not_lt.2 last)⟩
      · have after : next = .released := by simp only [next, if_neg more, LineBuffer.released]
        rw [if_neg more] at line
        rw [after, line]
        refine ⟨taken.trans ?_, fun less => absurd less more, fun _ => ⟨records, rfl, rfl⟩⟩
        rw [State.setScan_scan, records]
    · have line : t = u.requestFetch k := beginLine_of_first two place
      obtain ⟨scan, -, granted⟩ := requestFetch_spec (s := u) (k := k)
      rw [← line] at scan granted
      refine ⟨scan.trans ?_, granted⟩
      rw [request_eq]
      interval_cases k <;> rfl
    · have line : t = u := beginLine_of_blank blank
      rw [line]
      exact ⟨rfl, rfl, rfl⟩
    · have line : t = u.setScan { u.scan with output := .background } := beginLine_of_past past
      rw [line]
      exact ⟨rfl, rfl, rfl⟩
  · intro port into first share active
    have shows : port = panelAt c s.scan.output timer.line into := panel_of_running settled runs part
    have enable : port.dataEnable = true ↔ active ∧ first ≤ into ∧ into < c.lineTicks * c.w := by
      rw [shows, and_assoc]
      exact decide_eq_true_iff
    refine ⟨by rw [shows]; rfl, by rw [shows]; exact decide_eq_true_iff, by rw [shows]; exact decide_eq_true_iff, enable,
      fun low => ?_, fun j k inside hj hk place => ?_⟩
    · rw [shows] at low ⊢
      exact if_neg (Bool.eq_false_iff.1 low)
    · have row : timer.line = c.vb + (timer.line - c.vb) := by omega
      have pixel := panelAt_pixel (c := c) (out := s.scan.output) (k := timer.line - c.vb) (by omega) hj hk
      rw [shows, place, row, Nat.add_assoc]
      exact pixel

end Sys2Proof

/-! ### Notices through a frame start (R177): none is taken back, and each part raises its own -/

namespace Sys2Proof

open Sys2Proof.Machine

variable {s t u : State} {c : Settings} {bits more : List Nat}

/-- From `s` to `t` no notice goes, and none but those named may come. -/
def Raises (bits : List Nat) (s t : State) : Prop :=
  (∀ n, s.notices.getLsbD n = true → t.notices.getLsbD n = true) ∧
    ∀ n, n ∉ bits → t.notices.getLsbD n = s.notices.getLsbD n

namespace Raises

theorem of_eq (same : s.notices = t.notices) : Raises bits s t := by
  unfold Raises
  rw [same]
  exact ⟨fun _ h => h, fun _ _ => rfl⟩

theorem of_frame {l : List Part} (frame : Frame l s t) (quiet : Part.notices ∉ l) : Raises bits s t :=
  of_eq (frame.2 .notices quiet)

theorem refl : Raises bits s s := of_eq rfl

theorem trans (h : Raises bits s t) (k : Raises bits t u) : Raises bits s u :=
  ⟨fun n set => k.1 n (h.1 n set), fun n out => (k.2 n out).trans (h.2 n out)⟩

theorem mono (h : Raises bits s t) (sub : ∀ n ∈ bits, n ∈ more) : Raises more s t :=
  ⟨h.1, fun n out => h.2 n fun k => out (sub n k)⟩

theorem raise (x : Notice) (listed : x.bit ∈ bits) : Raises bits s (s.raise x) := by
  refine ⟨fun n set => ?_, fun n out => ?_⟩
  · simp [State.raise, set]
  · have other : x.bit ≠ n := fun e => out (e ▸ listed)
    simp [State.raise, BitVec.getLsbD_twoPow, other]

theorem ite {p : Prop} [Decidable p] (h : Raises bits s t) (k : Raises bits s u) : Raises bits s (if p then t else u) := by
  split
  · exact h
  · exact k

theorem setTiming (v : TimingUnit) : Raises bits s (s.setTiming v) := of_eq rfl

theorem setNow (v : Tick) : Raises bits s (s.setNow v) := of_eq rfl

theorem setRole (v : RoleUnit) : Raises bits s (s.setRole v) := of_eq rfl

theorem setRoster (v : RosterUnit) : Raises bits s (s.setRoster v) := of_eq rfl

theorem setPresentation (v : Presentation) : Raises bits s (s.setPresentation v) := of_eq rfl

theorem setRingOut (v : RingTransmitter) : Raises bits s (s.setRingOut v) := of_eq rfl

theorem setScan (v : ScanOut) : Raises bits s (s.setScan v) := of_eq rfl

theorem setLock (l : Lock) : Raises [2] s (s.setLock l) := by
  unfold State.setLock
  exact ite (setTiming _) (trans (setTiming _) (raise .lockChanged (by decide)))

theorem setRing (r : RingState) : Raises [3] s (s.setRing r) := by
  unfold State.setRing
  exact ite (setRingOut _) (trans (setRingOut _) (raise .ringChanged (by decide)))

theorem examineLock (t : Tick) : Raises [2] s (s.examineLock t) := by
  unfold State.examineLock
  split
  · exact ite (trans (setTiming _) (setLock _)) refl
  · exact ite (trans (setTiming _) (setLock _)) refl
  · exact ite refl (ite (trans (setTiming _) (setLock _)) (setTiming _))
  · exact refl
  · exact refl

theorem timingFrameStart (t : Tick) : Raises [2] s (s.timingFrameStart c t) :=
  trans (setNow t) (trans (setTiming _) (trans (examineLock t) (setTiming _)))

theorem timingClaim : Raises [2] s s.timingClaim := trans (setTiming _) (setLock .reference)

theorem claim : Raises [1, 2] s (s.claim c) :=
  trans (setRole _) (trans (timingClaim.mono (by decide)) (raise .roleChanged (by decide)))

theorem roleFrameStart : Raises [1, 2] s (s.roleFrameStart c) := by
  unfold State.roleFrameStart
  dsimp only
  split
  · exact ite (ite (trans (setRole _) claim)
      (trans (setRole _) (trans (setRole _) (raise .roleChanged (by decide))))) (trans (setRole _) (setRole _))
  · exact ite (trans (setRole _) claim) (setRole _)
  · exact setRole _
  · exact setRole _

theorem expireEntries (n : Nat) (rest : List Outstanding) : Raises [3] s (s.expireEntries n rest) := by
  unfold State.expireEntries
  exact ite refl (trans (setRingOut _) (setRing .broken))

theorem departOwn (kind : OwnKind) (payload : List Byte) (delay : BitVec 16) :
    Raises [3] s (s.departOwn c kind payload delay) := by
  unfold State.departOwn State.joinOutstanding
  exact trans (setRingOut _) (trans (ite (expireEntries _ _) refl) (setRingOut _))

theorem ownStandingDeparts (q : Byte) : Raises [0] s (s.ownStandingDeparts q) := by
  unfold State.ownStandingDeparts
  exact ite (trans (setRoster _) (raise .rosterChanged (by decide))) (setRoster _)

theorem chooseOut : Raises [0, 3] s s.chooseOut := by
  have own (c : Settings) (v : RingTransmitter) (kind : OwnKind) (payload : List Byte) (delay : BitVec 16) :
      Raises [0, 3] s ((s.setRingOut v).departOwn c kind payload delay) :=
    trans (setRingOut v) ((departOwn kind payload delay).mono (by decide))
  unfold State.chooseOut
  split
  · exact refl
  · split
    · exact setRingOut _
    · split
      · exact refl
      · refine ite (own _ _ _ _ _) ?_
        split
        · exact own _ _ _ _ _
        · exact ite (trans (own _ _ _ _ _) ((ownStandingDeparts _).mono (by decide))) refl

theorem presentationStep : Raises [4] s s.presentationStep := by
  unfold State.presentationStep
  split
  · exact setPresentation _
  · refine ite ?_ (ite (setPresentation _) (setPresentation _))
    unfold State.applyDecision
    dsimp only
    refine ite (setPresentation _) (ite (setPresentation _) ?_)
    split
    · exact of_frame (Frame.presents _ _ _ _) (by decide)
    · exact trans (setPresentation _) (raise .miss (by decide))

theorem passTicks (d : Tick) : Raises bits s (s.passTicks d) := by
  unfold State.passTicks
  split
  · exact setNow _
  · exact ite (setNow _) refl

theorem offerBeat (b : Beat) : Raises [0, 3] s (s.offerBeat b) := trans (setRingOut _) chooseOut

theorem composition (d : Tick) : Raises [0, 3] s (s.composition c d) := by
  unfold State.composition
  dsimp only
  exact ite (trans (setPresentation _) (trans (passTicks d) (offerBeat _))) refl

theorem standingOffer : Raises [0, 3] s s.standingOffer := by
  unfold State.standingOffer
  split
  · exact trans (setRingOut _) chooseOut
  · exact refl
  · exact refl
  · exact refl

end Raises

/-- The notices that each part of a frame start may raise. -/
def partNotices : FramePart → List Nat
  | .role => [1, 2]
  | .present => [4]
  | .compose | .offer => [0, 3]
  | .expire => [3]
  | .settle | .firstLine | .holds => []

theorem Raises.framePart (cut : Bool) (d : Tick) (x : FramePart) : Raises (partNotices x) s (s.framePart c cut d x) := by
  cases x with
  | role => exact .roleFrameStart
  | settle | holds => exact .of_eq rfl
  | present => exact .presentationStep
  | firstLine => exact .of_frame (Frame.beginLine s c 0) (by decide)
  | compose => exact .composition d
  | offer => exact .standingOffer
  | expire => exact .expireEntries _ _

end Sys2Proof

/-! ### A frame start, split at one of its parts (R77; log 7) -/

namespace Sys2Proof

open Sys2Proof.Machine

variable {s : State} {e : Elapsed} {c : Settings} {timer : FrameTimer} {order : FrameOrder} {cut : Bool} {d : Tick}
  {p q : FramePart} {front rest l : List FramePart} {u : TimingUnit}

/-! #### What a part of a frame start can change -/

def partChanges : FramePart → List Part
  | .role => [.role, .timing, .notices]
  | .settle => [.scan]
  | .present => [.presentation, .slots, .scan, .ingest, .transfer, .notices]
  | .firstLine => [.ingest, .transfer, .scan]
  | .compose => [.now, .presentation, .ringOut, .roster, .notices]
  | .holds => [.roster]
  | .offer => [.ringOut, .roster, .notices]
  | .expire => [.ringOut, .notices]

theorem frame_framePart (cut : Bool) (d : Tick) (x : FramePart) : Frame (partChanges x) s (s.framePart c cut d x) := by
  cases x with
  | role => exact (Frame.roleFrameStart s c).mono (by decide)
  | settle => exact .setScan s _
  | present => exact .presentationStep s
  | firstLine => exact .beginLine s c 0
  | compose => exact .composition s c d
  | holds => exact .setRoster s _
  | offer => exact .standingOffer s
  | expire => exact .expireOld s

/-- The parts of a list, one after another. -/
abbrev startRun (c : Settings) (cut : Bool) (d : Tick) (l : List FramePart) (s : State) : State :=
  l.foldl (State.framePart c cut d) s

/-- What no part of a list changes stands after it. -/
theorem startRun_field {α : Type} {f : State → α}
    (keeps : ∀ x ∈ l, ∀ s : State, s.loader.settled = some c → f (s.framePart c cut d x) = f s)
    (settled : s.loader.settled = some c) : f (startRun c cut d l s) = f s :=
  frameParts_keep (P := fun t => f t = f s) (fun x hx t ht h => (keeps x hx t ht).trans h) settled rfl

theorem frame_startRun (cut : Bool) (d : Tick) (l : List FramePart) :
    Frame (l.flatMap partChanges) s (startRun c cut d l s) := by
  induction l generalizing s with
  | nil => exact .refl _ _
  | cons x l ih =>
    exact ((frame_framePart cut d x).mono fun y hy => List.mem_flatMap.2 ⟨x, List.mem_cons_self, hy⟩).trans
      (ih.mono fun y hy => List.mem_append_right _ hy)

theorem same_startRun {y : Part} (apart : ∀ x ∈ l, y ∉ partChanges x) : y.same s (startRun c cut d l s) := by
  refine (frame_startRun cut d l).2 y fun hy => ?_
  obtain ⟨x, hx, changes⟩ := List.mem_flatMap.1 hy
  exact apart x hx changes

theorem Raises.startRun {bits : List Nat} (quiet : ∀ x ∈ l, ∀ n ∈ partNotices x, n ∈ bits) :
    Raises bits s (startRun c cut d l s) := by
  induction l generalizing s with
  | nil => exact .refl
  | cons x l ih =>
    exact .trans ((Raises.framePart cut d x).mono (quiet x List.mem_cons_self))
      (ih fun y hy => quiet y (List.mem_cons_of_mem _ hy))

/-- A notice once raised stands to the end of the frame start. -/
theorem notice_startRun {n : Nat} (raised : s.notices.getLsbD n = true) :
    (startRun c cut d l s).notices.getLsbD n = true :=
  (Raises.startRun (bits := [0, 1, 2, 3, 4]) fun x _ => by cases x <;> decide).1 n raised

/-! #### The order taken, split at a part -/

/-- What stands before `q` in a list, up to its place. -/
theorem before_iff_mem (absent : q ∉ front) : FramePart.before (front ++ q :: rest) p q = true ↔ p ∈ front := by
  have place : (front ++ q :: rest).idxOf q = front.length := by
    rw [List.idxOf_append_of_notMem absent, List.idxOf_cons_self, Nat.add_zero]
  rw [FramePart.before, decide_eq_true_iff, place]
  constructor
  · intro early
    by_contra hp
    rw [List.idxOf_append_of_notMem hp] at early
    omega
  · intro hp
    rw [List.idxOf_append_of_mem hp]
    exact List.idxOf_lt_length_iff.2 hp

/-- The parts taken before `q` and those taken after it. -/
structure SplitAt (order : FrameOrder) (q : FramePart) (front rest : List FramePart) : Prop where
  taken : order.taken = front ++ q :: rest
  not_front : q ∉ front
  not_rest : q ∉ rest

theorem exists_splitAt (order : FrameOrder) (q : FramePart) : ∃ front rest, SplitAt order q front rest := by
  obtain ⟨front, rest, taken⟩ := List.append_of_mem (mem_taken order q)
  have nodup := nodup_taken order
  rw [taken] at nodup
  have absent := List.nodup_middle.1 nodup
  have absent := (List.nodup_cons.1 absent).1
  rw [List.mem_append, not_or] at absent
  exact ⟨front, rest, taken, absent.1, absent.2⟩

namespace SplitAt

theorem mem_front_iff (h : SplitAt order q front rest) : p ∈ front ↔ FramePart.before order.taken p q = true := by
  rw [h.taken, before_iff_mem h.not_front]

theorem mem_rest_iff (h : SplitAt order q front rest) : p ∈ rest ↔ p ≠ q ∧ p ∉ front := by
  have nodup := nodup_taken order
  have mem := mem_taken order p
  rw [h.taken] at nodup mem
  constructor
  · intro hp
    exact ⟨fun e => h.not_rest (e ▸ hp), fun hf => List.disjoint_of_nodup_append nodup hf (List.mem_cons_of_mem _ hp)⟩
  · rintro ⟨other, absent⟩
    exact (List.mem_cons.1 ((List.mem_append.1 mem).resolve_left absent)).resolve_left other

/-- What is taken after `q` does not come before it. -/
theorem not_mem_front (h : SplitAt order q front rest) (after : FramePart.before order.taken q p = true) : p ∉ front := by
  intro k
  have early := h.mem_front_iff.1 k
  unfold FramePart.before at after early
  simp only [decide_eq_true_eq] at after early
  omega

end SplitAt

/-! #### The frame start of a running timer -/

/-- The state after a frame start at its time. -/
def started (c : Settings) (timer : FrameTimer) (order : FrameOrder) (b : State) : State :=
  startRun c (cutsFrame c timer.last timer.next) order.composeTicks order.taken (b.timingFrameStart c timer.next)

theorem nextFrameStart_of_runs (runs : TimerRuns e c timer s) :
    (s.elapse e).nextFrameStart order = started c timer order (s.elapse e) := by
  obtain ⟨-, settled, running, ahead⟩ := runs
  unfold State.nextFrameStart
  rw [running]
  dsimp only
  rw [if_pos ahead, State.frameStartAt, settled, running]
  rfl

theorem exec_frameStart_of_runs (runs : TimerRuns e c timer s) :
    exec (.frameStart e order) s = .next (started c timer order (s.elapse e)) := by
  rw [exec_frameStart runs.1, nextFrameStart_of_runs runs]

theorem started_split (h : SplitAt order q front rest) : started c timer order s =
    startRun c (cutsFrame c timer.last timer.next) order.composeTicks rest
      ((startRun c (cutsFrame c timer.last timer.next) order.composeTicks front (s.timingFrameStart c timer.next)).framePart c
        (cutsFrame c timer.last timer.next) order.composeTicks q) := by
  unfold started
  rw [h.taken]
  exact List.foldl_append

theorem settled_startRun (settled : s.loader.settled = some c) : (startRun c cut d l s).loader.settled = some c :=
  (congrArg Loader.settled (same_startRun (y := .loader) fun x _ => by cases x <;> decide)).symm.trans settled

theorem started_settled (settled : s.loader.settled = some c) (t : Tick) :
    (s.timingFrameStart c t).loader.settled = some c :=
  (congrArg Loader.settled (loader_timingFrameStart t)).trans settled

theorem startFields_startRun (h : StartFields u s) (settled : s.loader.settled = some c) :
    StartFields u (startRun c cut d l s) :=
  frameParts_keep (fun _ _ _ _ h => h.framePart) settled h

end Sys2Proof

/-! ### The role and the lock state at a frame start (R59 to R62, R77, R88 to R90) -/

namespace Sys2Proof

open Sys2Proof.Machine

variable {s : State} {e : Elapsed} {c : Settings} {timer : FrameTimer} {order : FrameOrder} {t : Tick}

/-! #### The Role Controller's part -/

/-- Beats-missed has counted a frame start (R59). -/
def missedCounted (r : RoleUnit) : RoleUnit := { r with beatsMissed := min 255 (r.beatsMissed + 1) }

/-- An eligible station that has missed 3 BEATs (R60, R61). -/
def MayClaim (c : Settings) (s : State) : Prop :=
  c.capable = true ∧ 3 ≤ (missedCounted s.role).beatsMissed ∧
    ∀ y ∈ s.roster.entries, y.member = true → y.said.capable = true → c.address.toNat ≤ y.address.toNat

theorem eligible_iff : (s.eligible c && decide (Config.missedLimit ≤ (missedCounted s.role).beatsMissed)) = true ↔
    MayClaim c s := by
  have others : (s.roster.entries.all fun y => !(y.member && y.said.capable && decide (y.address.toNat < c.address.toNat)))
      = true ↔ ∀ y ∈ s.roster.entries, y.member = true → y.said.capable = true → c.address.toNat ≤ y.address.toNat := by
    refine List.all_eq_true.trans (forall₂_congr fun y _ => ?_)
    cases y.member <;> cases y.said.capable <;> simp
  rw [Bool.and_eq_true, State.eligible, Bool.and_eq_true, others, decide_eq_true_iff]
  unfold MayClaim Config.missedLimit
  exact ⟨fun ⟨⟨capable, low⟩, missed⟩ => ⟨capable, missed, low⟩, fun ⟨capable, missed, low⟩ => ⟨⟨capable, low⟩, missed⟩⟩

theorem claim_eq : s.claim c =
    { s with
      role := { s.role with role := .origin, current := some c.address, listening := 0, claims := bump s.role.claims },
      timing := { s.timing with slip := 0, holdover := 0, lock := .reference },
      notices := (if .reference = s.timing.lock then s.notices else s.notices ||| 0x0004#16) ||| 0x0002#16 } := by
  unfold State.claim State.timingClaim
  rw [setLock_eq]
  rfl

/-- The count of a frame start, before the role is looked at. -/
def countedRole (s : State) : State := s.setRole (missedCounted s.role)

theorem roleFrameStart_eq : s.roleFrameStart c =
    match s.role.role with
    | .listening =>
      if 4 ≤ s.role.listening + 1 then
        if (s.eligible c && decide (Config.missedLimit ≤ (missedCounted s.role).beatsMissed)) = true then
          (countedRole s).claim c
        else ((countedRole s).setRole { missedCounted s.role with role := .follower, listening := 0 }).raise .roleChanged
      else (countedRole s).setRole { missedCounted s.role with listening := s.role.listening + 1 }
    | .follower =>
      if (s.eligible c && decide (Config.missedLimit ≤ (missedCounted s.role).beatsMissed)) = true then
        (countedRole s).claim c
      else countedRole s
    | .origin => countedRole s
    | .standby => countedRole s := rfl

theorem roleFrameStart_of_claim (may : MayClaim c s)
    (role : s.role.role = .follower ∨ (s.role.role = .listening ∧ 3 ≤ s.role.listening)) :
    s.roleFrameStart c = (countedRole s).claim c := by
  have claims := eligible_iff.2 may
  rcases role with follower | ⟨listening, four⟩
  · rw [roleFrameStart_eq, follower]
    exact if_pos claims
  · rw [roleFrameStart_eq, listening]
    exact (if_pos (by omega)).trans (if_pos claims)

theorem roleFrameStart_of_end (may : ¬ MayClaim c s) (listening : s.role.role = .listening) (four : 3 ≤ s.role.listening) :
    s.roleFrameStart c =
      ((countedRole s).setRole { missedCounted s.role with role := .follower, listening := 0 }).raise .roleChanged := by
  rw [roleFrameStart_eq, listening]
  exact (if_pos (by omega)).trans (if_neg (mt eligible_iff.1 may))

theorem roleFrameStart_of_listening (listening : s.role.role = .listening) (fewer : s.role.listening < 3) :
    s.roleFrameStart c = (countedRole s).setRole { missedCounted s.role with listening := s.role.listening + 1 } := by
  rw [roleFrameStart_eq, listening]
  exact if_neg (by omega)

theorem roleFrameStart_of_follower (may : ¬ MayClaim c s) (follower : s.role.role = .follower) :
    s.roleFrameStart c = countedRole s := by
  rw [roleFrameStart_eq, follower]
  exact if_neg (mt eligible_iff.1 may)

theorem roleFrameStart_of_kept (kept : s.role.role = .origin ∨ s.role.role = .standby) :
    s.roleFrameStart c = countedRole s := by
  rw [roleFrameStart_eq]
  rcases kept with role | role <;> rw [role]

/-- The Role Controller's part claims the role, or leaves the Timing Unit and whether the station is ORIGIN. -/
theorem roleFrameStart_cases (s : State) (c : Settings) : s.roleFrameStart c = (countedRole s).claim c ∨
    ((s.roleFrameStart c).timing = s.timing ∧ ((s.roleFrameStart c).role.role = .origin ↔ s.role.role = .origin)) := by
  have kept {t : State} (eq : s.roleFrameStart c = t) (timing : t.timing = s.timing)
      (origin : t.role.role = .origin ↔ s.role.role = .origin) : (s.roleFrameStart c).timing = s.timing ∧
      ((s.roleFrameStart c).role.role = .origin ↔ s.role.role = .origin) := eq ▸ ⟨timing, origin⟩
  cases role : s.role.role with
  | origin => exact .inr (role ▸ kept (roleFrameStart_of_kept (.inl role)) rfl .rfl)
  | standby => exact .inr (role ▸ kept (roleFrameStart_of_kept (.inr role)) rfl .rfl)
  | follower =>
    by_cases may : MayClaim c s
    · exact .inl (roleFrameStart_of_claim may (.inl role))
    · exact .inr (role ▸ kept (roleFrameStart_of_follower may role) rfl .rfl)
  | listening =>
    by_cases four : 3 ≤ s.role.listening
    · by_cases may : MayClaim c s
      · exact .inl (roleFrameStart_of_claim may (.inr ⟨role, four⟩))
      · exact .inr (role ▸ kept (roleFrameStart_of_end may role four) rfl (by rw [role]; exact ⟨nofun, nofun⟩))
    · exact .inr (role ▸ kept (roleFrameStart_of_listening role (Nat.not_le.1 four)) rfl .rfl)

/-! #### The frame start, seen from the Role Controller -/

/-- The part meets the role and the entries as they stood, and the Timing Unit as it has left itself; nothing after it
touches the role or the Timing Unit. -/
theorem exists_atRole (settled : s.loader.settled = some c) : ∃ u : State, u.role = s.role ∧
    u.roster.entries = s.roster.entries ∧ u.timing = (s.timingFrameStart c timer.next).timing ∧
    (started c timer order s).role = (u.roleFrameStart c).role ∧
    (started c timer order s).timing = (u.roleFrameStart c).timing ∧
    ∀ n, (u.roleFrameStart c).notices.getLsbD n = true → (started c timer order s).notices.getLsbD n = true := by
  obtain ⟨front, rest, split⟩ := exists_splitAt order .role
  obtain ⟨-, -, compose, -, offer, -, -⟩ := FrameOrder.taken_spec order
  have no_compose : FramePart.compose ∉ front := split.not_mem_front compose
  have no_offer : FramePart.offer ∉ front := split.not_mem_front offer
  let cut := cutsFrame c timer.last timer.next
  let base := s.timingFrameStart c timer.next
  let u := startRun c cut order.composeTicks front base
  have begun : Frame [.now, .timing, .notices] s base := .timingFrameStart s c timer.next
  have entries : u.roster.entries = base.roster.entries := by
    refine startRun_field (f := fun v : State => v.roster.entries) (fun x hx v _ => ?_) (started_settled settled _)
    cases x with
    | role | settle | present | firstLine | expire =>
      exact congrArg RosterUnit.entries ((frame_framePart cut _ _).2 .roster (by decide)).symm
    | holds => rfl
    | compose => exact absurd hx no_compose
    | offer => exact absurd hx no_offer
  have apart (l : List FramePart) (absent : FramePart.role ∉ l) (y : Part) (hy : y = .role ∨ y = .timing) :
      ∀ x ∈ l, y ∉ partChanges x := by
    intro x hx
    have other : x ≠ .role := fun k => absent (k ▸ hx)
    rcases hy with rfl | rfl <;> cases x <;> simp_all [partChanges]
  have whole : started c timer order s = startRun c cut order.composeTicks rest (u.roleFrameStart c) := started_split split
  refine ⟨u, ?_, ?_, ?_, ?_, ?_, fun n raised => ?_⟩
  · exact ((begun.2 .role (by decide)).trans (same_startRun (apart front split.not_front .role (.inl rfl)))).symm
  · exact entries.trans (congrArg RosterUnit.entries (begun.2 .roster (by decide))).symm
  · exact (same_startRun (y := .timing) (apart front split.not_front .timing (.inr rfl))).symm
  · rw [whole]
    exact (same_startRun (y := .role) (apart rest split.not_rest .role (.inl rfl))).symm
  · rw [whole]
    exact (same_startRun (y := .timing) (apart rest split.not_rest .timing (.inr rfl))).symm
  · rw [whole]
    exact notice_startRun raised

end Sys2Proof

/-! ### The lock state through a frame start (R77, R88, R89) -/

namespace Sys2Proof

open Sys2Proof.Machine

variable {s : State} {e : Elapsed} {c : Settings} {timer : FrameTimer} {order : FrameOrder} {t : Tick}

/-- The Timing Unit past steps 1 to 4 of R77, its departure forgotten. -/
def frameCounted (c : Settings) (t : Tick) (u : TimingUnit) : TimingUnit :=
  { u.startFrame c.period t with departedAt := none }

/-- Timed-missed reaches 3 in ACQUIRING or LOCKED (R88). -/
def EntersHoldover (u : TimingUnit) : Prop := (u.lock = .acquiring ∨ u.lock = .locked) ∧ 2 ≤ u.timedMissed

theorem limit_iff {n : Nat} : Config.missedLimit ≤ min Config.missedCeiling (n + 1) ↔ 2 ≤ n := by
  unfold Config.missedLimit Config.missedCeiling
  omega

/-- The state whose lock state a frame start examines. -/
def beforeExamine (c : Settings) (t : Tick) (s : State) : State := (s.setNow t).setTiming (s.timing.startFrame c.period t)

theorem setLock_of_change {l : Lock} (changes : l ≠ s.timing.lock) : s.setLock l =
    { s with timing := { s.timing with lock := l }, notices := s.notices ||| 0x0004#16 } := by
  rw [setLock_eq, if_neg changes]

theorem timingFrameStart_eq : s.timingFrameStart c t =
    ((beforeExamine c t s).examineLock t).setTiming
      { ((beforeExamine c t s).examineLock t).timing with departedAt := none } := rfl

theorem timingFrameStart_of_enters (enters : EntersHoldover s.timing) : s.timingFrameStart c t =
    { s with
      now := t,
      timing :=
        { frameCounted c t s.timing with
          slip := 0, holdover := 0, holdoverEntries := bump s.timing.holdoverEntries, lock := .holdover },
      notices := s.notices ||| 0x0004#16 } := by
  obtain ⟨lock, missed⟩ := enters
  have missed : Config.missedLimit ≤ (beforeExamine c t s).timing.timedMissed := limit_iff.2 missed
  have examined : (beforeExamine c t s).examineLock t = State.setLock .holdover ((beforeExamine c t s).setTiming
      { (beforeExamine c t s).timing with
        slip := 0, holdover := 0, holdoverEntries := bump (beforeExamine c t s).timing.holdoverEntries }) := by
    have lock : (beforeExamine c t s).timing.lock = .acquiring ∨ (beforeExamine c t s).timing.lock = .locked := lock
    unfold State.examineLock
    rcases lock with lock | lock <;> rw [lock] <;> exact if_pos missed
  have changes : .holdover ≠ s.timing.lock := by
    rcases lock with lock | lock <;> rw [lock] <;> decide
  rw [timingFrameStart_eq, examined, setLock_of_change]
  · rfl
  · exact changes

theorem timingFrameStart_of_kept (kept : s.timing.lock = .free ∨ s.timing.lock = .reference ∨
      ((s.timing.lock = .acquiring ∨ s.timing.lock = .locked) ∧ ¬ 2 ≤ s.timing.timedMissed) ∨
      (s.timing.lock = .holdover ∧ s.timing.departedAt = some t)) :
    s.timingFrameStart c t = { s with now := t, timing := frameCounted c t s.timing } := by
  have few (h : ¬ 2 ≤ s.timing.timedMissed) : ¬ Config.missedLimit ≤ (beforeExamine c t s).timing.timedMissed :=
    mt limit_iff.1 h
  have examined : (beforeExamine c t s).examineLock t = beforeExamine c t s := by
    have same : (beforeExamine c t s).timing.lock = s.timing.lock := rfl
    unfold State.examineLock
    rw [same]
    rcases kept with lock | lock | ⟨lock | lock, missed⟩ | ⟨lock, departed⟩ <;> rw [lock]
    · exact if_neg (few missed)
    · exact if_neg (few missed)
    · exact if_pos departed
  rw [timingFrameStart_eq, examined]
  rfl

theorem timingFrameStart_of_count (lock : s.timing.lock = .holdover) (departed : s.timing.departedAt ≠ some t)
    (more : s.timing.holdover < 15) : s.timingFrameStart c t =
    { s with now := t, timing := { frameCounted c t s.timing with holdover := s.timing.holdover + 1 } } := by
  have examined : (beforeExamine c t s).examineLock t =
      (beforeExamine c t s).setTiming { (beforeExamine c t s).timing with holdover := s.timing.holdover + 1 } := by
    have same : (beforeExamine c t s).timing.lock = s.timing.lock := rfl
    unfold State.examineLock
    rw [same, lock]
    refine (if_neg departed).trans (if_neg ?_)
    exact fun reached => absurd (Nat.le_of_succ_le_succ reached) (Nat.not_le.2 more)
  rw [timingFrameStart_eq, examined]
  rfl

theorem timingFrameStart_of_end (lock : s.timing.lock = .holdover) (departed : s.timing.departedAt ≠ some t)
    (reached : 15 ≤ s.timing.holdover) : s.timingFrameStart c t =
    { s with
      now := t, timing := { frameCounted c t s.timing with holdover := 0, lock := .free },
      notices := s.notices ||| 0x0004#16 } := by
  have examined : (beforeExamine c t s).examineLock t = State.setLock .free
      ((beforeExamine c t s).setTiming { (beforeExamine c t s).timing with holdover := 0 }) := by
    have same : (beforeExamine c t s).timing.lock = s.timing.lock := rfl
    unfold State.examineLock
    rw [same, lock]
    exact (if_neg departed).trans (if_pos (Nat.succ_le_succ reached))
  have changes : .free ≠ s.timing.lock := by
    rw [lock]
    decide
  rw [timingFrameStart_eq, examined, setLock_of_change]
  · rfl
  · exact changes

/-- A frame start leads nowhere to REFERENCE but where the lock state stands there. -/
theorem lock_timingFrameStart_ne (lock : s.timing.lock ≠ .reference) : (s.timingFrameStart c t).timing.lock ≠ .reference := by
  have same : (frameCounted c t s.timing).lock = s.timing.lock := rfl
  by_cases enters : EntersHoldover s.timing
  · rw [timingFrameStart_of_enters enters]
    exact nofun
  · cases is : s.timing.lock with
    | free => rw [timingFrameStart_of_kept (.inl is)]; exact same ▸ lock
    | reference => exact absurd is lock
    | acquiring =>
      rw [timingFrameStart_of_kept (.inr (.inr (.inl ⟨.inl is, fun missed => enters ⟨.inl is, missed⟩⟩)))]
      exact same ▸ lock
    | locked =>
      rw [timingFrameStart_of_kept (.inr (.inr (.inl ⟨.inr is, fun missed => enters ⟨.inr is, missed⟩⟩)))]
      exact same ▸ lock
    | holdover =>
      by_cases departed : s.timing.departedAt = some t
      · rw [timingFrameStart_of_kept (.inr (.inr (.inr ⟨is, departed⟩)))]
        exact same ▸ lock
      · by_cases reached : 15 ≤ s.timing.holdover
        · rw [timingFrameStart_of_end is departed reached]
          exact nofun
        · rw [timingFrameStart_of_count is departed (Nat.not_le.1 reached)]
          exact same ▸ lock

/-- Settles O23: by what the Role Controller's part makes of the role, the count and the entries. -/
theorem listeningEndsAtTheFourth : Obligations.ListeningEndsAtTheFourth := by
  intro e order c timer s runs b missed counted claims claimed
  have ⟨awake, settled, _, _⟩ := runs
  obtain ⟨u, role, entries, timing, after_role, after_timing, notices⟩ := exists_atRole (timer := timer) (order := order)
    settled
  have may : MayClaim c u ↔ claims := by
    unfold MayClaim
    rw [role, entries]
    exact Iff.rfl
  have counted_eq : missedCounted u.role = counted := congrArg missedCounted role
  have claims_role (h : u.roleFrameStart c = (countedRole u).claim c) : claimed (started c timer order b) := by
    rw [claim_eq] at h
    unfold claimed
    rw [after_role, after_timing]
    have taken : (u.roleFrameStart c).role =
        { missedCounted u.role with
          role := .origin, current := some c.address, listening := 0, claims := bump u.role.claims } := by rw [h]; rfl
    rw [counted_eq, role] at taken
    refine ⟨taken, by rw [h], by rw [h], by rw [h], notices 1 ?_, fun other => notices 2 ?_⟩
    · rw [h]
      simp
    · have changes : Lock.reference ≠ (countedRole u).timing.lock := by
        change Lock.reference ≠ u.timing.lock
        rw [timing]
        exact (lock_timingFrameStart_ne other).symm
      rw [h]
      dsimp only
      rw [if_neg changes]
      simp
  refine ⟨started c timer order b, exec_frameStart_of_runs runs, fun listening three => ⟨?_, fun h => ?_, fun h => ?_⟩,
    fun listening fewer => ?_, fun follower => ⟨fun h => ?_, fun h => ?_⟩, fun kept => ?_⟩
  · have ends : b.listeningEnds = true := by
      simp [State.listeningEnds, listening, three, Config.listeningLimit]
    rw [exec_listeningCountEnd awake, State.frameStartIf, if_pos ends, nextFrameStart_of_runs runs]
  · exact claims_role (roleFrameStart_of_claim (may.2 h) (.inr (role ▸ ⟨listening, three.ge⟩)))
  · have ended := roleFrameStart_of_end (mt may.1 h) (role ▸ listening) (role ▸ three.ge)
    rw [after_role, ended, counted_eq]
    refine ⟨rfl, notices 1 ?_⟩
    rw [ended]
    simp [State.raise, Notice.bit]
  · rw [after_role, roleFrameStart_of_listening (role ▸ listening) (role ▸ fewer), counted_eq, role]
    rfl
  · exact claims_role (roleFrameStart_of_claim (may.2 h) (.inl (role ▸ follower)))
  · rw [after_role, roleFrameStart_of_follower (mt may.1 h) (role ▸ follower)]
    exact counted_eq
  · rw [after_role, roleFrameStart_of_kept (role ▸ kept)]
    exact counted_eq

end Sys2Proof

/-! ### HOLDOVER entered and left at a frame start (R88 to R91) -/

namespace Sys2Proof

open Sys2Proof.Machine

variable {s : State} {e : Elapsed} {c : Settings} {timer : FrameTimer} {order : FrameOrder} {t : Tick}

/-- After the Timing Unit's own part, nothing but a claim reaches it. -/
theorem timing_started_cases (settled : s.loader.settled = some c) :
    (started c timer order s).timing = (s.timingFrameStart c timer.next).timing ∨
      ((started c timer order s).timing =
          { (s.timingFrameStart c timer.next).timing with slip := 0, holdover := 0, lock := .reference } ∧
        (started c timer order s).role.role = .origin) := by
  obtain ⟨u, -, -, timing, after_role, after_timing, -⟩ := exists_atRole (timer := timer) (order := order) settled
  rw [after_role, after_timing, ← timing]
  rcases roleFrameStart_cases u c with claims | ⟨same, -⟩
  · rw [claims, claim_eq]
    exact .inr ⟨rfl, rfl⟩
  · exact .inl same

/-- The lock state and the holdover count of the Timing Unit's part, or REFERENCE and 0 after a claim. -/
def LockReached (lock : Lock) (count : Nat) (t : State) : Prop :=
  (t.role.role ≠ .origin → t.timing.lock = lock) ∧
    ((t.timing.lock = lock ∧ t.timing.holdover = count) ∨
      (t.timing.lock = .reference ∧ t.role.role = .origin ∧ t.timing.holdover = 0))

theorem lockReached_started {lock : Lock} {count : Nat} (settled : s.loader.settled = some c)
    (locked : (s.timingFrameStart c timer.next).timing.lock = lock)
    (counted : (s.timingFrameStart c timer.next).timing.holdover = count) :
    LockReached lock count (started c timer order s) := by
  rcases timing_started_cases (timer := timer) (order := order) settled with same | ⟨claims, origin⟩
  · rw [← same] at locked counted
    exact ⟨fun _ => locked, .inl ⟨locked, counted⟩⟩
  · exact ⟨fun other => absurd origin other, .inr ⟨by rw [claims], origin, by rw [claims]⟩⟩

/-- A claim leaves HOLDOVER_ENTRIES as it is, and a slip count of 0. -/
theorem holdoverEntries_started (settled : s.loader.settled = some c) :
    (started c timer order s).timing.holdoverEntries = (s.timingFrameStart c timer.next).timing.holdoverEntries ∧
      ((s.timingFrameStart c timer.next).timing.slip = 0 → (started c timer order s).timing.slip = 0) := by
  rcases timing_started_cases (timer := timer) (order := order) settled with same | ⟨claims, -⟩
  · rw [same]
    exact ⟨rfl, id⟩
  · rw [claims]
    exact ⟨rfl, fun _ => rfl⟩

theorem holdoverEntries_timingFrameStart (enters : ¬ EntersHoldover s.timing) :
    (s.timingFrameStart c t).timing.holdoverEntries = s.timing.holdoverEntries := by
  cases is : s.timing.lock with
  | free => rw [timingFrameStart_of_kept (.inl is)]; rfl
  | reference => rw [timingFrameStart_of_kept (.inr (.inl is))]; rfl
  | acquiring =>
    rw [timingFrameStart_of_kept (.inr (.inr (.inl ⟨.inl is, fun missed => enters ⟨.inl is, missed⟩⟩)))]; rfl
  | locked => rw [timingFrameStart_of_kept (.inr (.inr (.inl ⟨.inr is, fun missed => enters ⟨.inr is, missed⟩⟩)))]; rfl
  | holdover =>
    by_cases departed : s.timing.departedAt = some t
    · rw [timingFrameStart_of_kept (.inr (.inr (.inr ⟨is, departed⟩)))]; rfl
    · by_cases reached : 15 ≤ s.timing.holdover
      · rw [timingFrameStart_of_end is departed reached]; rfl
      · rw [timingFrameStart_of_count is departed (Nat.not_le.1 reached)]; rfl

theorem lockEnds_iff : s.lockEnds = true ↔ EntersHoldover s.timing := by
  simp [State.lockEnds, EntersHoldover, Config.missedLimit]

theorem holdoverEnds_iff : s.holdoverEnds = true ↔ s.timing.lock = .holdover ∧ 15 ≤ s.timing.holdover := by
  simp [State.holdoverEnds, Config.holdoverLimit]

/-- The frame start where the named thing comes about, and nothing but what has passed elsewhere (log 5). -/
theorem frameStartIf_of_runs (runs : TimerRuns e c timer s) {comes : Bool} {p : Prop} (names : comes = true ↔ p) :
    (p → (s.elapse e).frameStartIf comes order = started c timer order (s.elapse e)) ∧
      (¬ p → (s.elapse e).frameStartIf comes order = s.elapse e) :=
  ⟨fun h => (if_pos (names.2 h)).trans (nextFrameStart_of_runs runs), fun h => if_neg (mt names.1 h)⟩

/-- Settles O26: the Timing Unit's part by the lock state, and the claim that may follow it. -/
theorem holdoverEntryAndExpiry : Obligations.HoldoverEntryAndExpiry := by
  intro e order c timer s runs b enters ends
  have ⟨awake, settled, _, _⟩ := runs
  obtain ⟨entry, no_entry⟩ := frameStartIf_of_runs (order := order) runs (lockEnds_iff (s := b))
  obtain ⟨expiry, no_expiry⟩ := frameStartIf_of_runs (order := order) runs (holdoverEnds_iff (s := b))
  obtain ⟨entries, slips⟩ := holdoverEntries_started (timer := timer) (order := order) settled
  refine ⟨started c timer order b, exec_frameStart_of_runs runs, fun h => ?_, fun h => ?_, fun h => ?_, fun h => ?_, ?_⟩
  · rw [exec_holdoverEntry awake, entry h]
  · rw [exec_holdoverEntry awake, no_entry h]
  · rw [exec_holdoverExpiry awake, expiry h]
  · rw [exec_holdoverExpiry awake, no_expiry h]
  · intro reaches
    refine ⟨fun h => ?_, fun h => ?_, fun lock departed => ?_, fun lock departed => ⟨fun more => ?_, fun full => ?_⟩⟩
    · have examined := timingFrameStart_of_enters (c := c) (t := timer.next) h
      refine ⟨lockReached_started settled (by rw [examined]) (by rw [examined]), slips (by rw [examined]),
        notice_startRun ?_, entries.trans ?_⟩
      · rw [examined]
        simp
      · rw [examined]
    · exact entries.trans (holdoverEntries_timingFrameStart h)
    · have examined := timingFrameStart_of_kept (c := c) (.inr (.inr (.inr ⟨lock, departed⟩)))
      exact lockReached_started settled (by rw [examined]; exact lock) (by rw [examined]; rfl)
    · have examined := timingFrameStart_of_count (c := c) lock departed more
      exact lockReached_started settled (by rw [examined]; exact lock) (by rw [examined])
    · have examined := timingFrameStart_of_end (c := c) lock departed full
      refine ⟨lockReached_started settled (by rw [examined]) (by rw [examined]), notice_startRun ?_⟩
      rw [examined]
      simp

end Sys2Proof

/-! ### The presentation step (R14, R33 to R37, R164) -/

namespace Sys2Proof

open Sys2Proof.Machine

variable {s : State} {e : Elapsed} {c : Settings} {timer : FrameTimer} {order : FrameOrder} {u : ScanOut} {p : FrameNo}
  {i : Nat} {m : SlotManager}

/-! #### The Slot Manager -/

theorem completeIndex_eq_none (absent : ∀ r ∈ m.table, ¬ (r.state = .complete ∧ r.frame = some p)) :
    m.completeIndex p = none := by
  refine List.findIdx?_eq_none_iff.2 fun r hr => ?_
  simpa using absent r hr

/-- The one slot that holds the frame is found. -/
theorem completeIndex_eq_of_only {r : Slot} (hi : m.table[i]? = some r) (done : r.state = .complete) (frame : r.frame = some p)
    (only : ∀ (j : Nat) (q : Slot), m.table[j]? = some q → q.state = .complete → q.frame = some p → j = i) :
    m.completeIndex p = some i :=
  completeIndex_eq_of_first hi done frame fun j q before hj held =>
    absurd (only j q hj held.1 held.2) (Nat.ne_of_lt before)

theorem presented_of_done {r : Slot} (done : r.state = .complete) (frame : r.frame = some p) :
    r.presented p = { r with state := .shown } := by
  simp [Slot.presented, done, frame]

theorem presented_of_other {q : Slot} (other : ¬ (q.state = .complete ∧ q.frame = some p)) : q.presented p =
    if q.state = .shown ∨ (q.state = .complete ∧ ∃ f, q.frame = some f ∧ laterThan p f = true) then .freed else q := by
  obtain ⟨state, frame, written, pending, damaged⟩ := q
  cases state with
  | complete =>
    cases frame with
    | none => simp [Slot.presented]
    | some f =>
      have apart : f ≠ p := fun same => other ⟨rfl, congrArg some same⟩
      simp [Slot.presented, apart]
  | shown => simp [Slot.presented]
  | free | filling | closing | draining => simp [Slot.presented]

theorem skippedBy_eq (q : Slot) : q.skippedBy p = (decide (q.state = .complete) && q.frame.any (laterThan p)) := by
  unfold Slot.skippedBy
  cases q.frame with
  | none => simp [beq_eq_decide]
  | some f =>
    by_cases later : laterThan p f = true
    · simp [later, (laterThan_ne later).symm, beq_eq_decide]
    · simp [later, beq_eq_decide]

/-! #### The Scan-Out Unit -/

/-- A line buffer whose LINE is present gets VALID no (R164). -/
def emptiedBuffer (x : LineBuffer) : LineBuffer := if x.line = none then x else { line := x.line, valid := false, pixels := [] }

/-- A buffer whose LINE is present asks again, unless a record of its own that is not STALE waits. -/
def askedAgain (records : List FetchRecord) (b : Fin 2) (x : LineBuffer) : List FetchRecord :=
  match x.line with
  | none => []
  | some l => if ∃ q ∈ records, q.buffer = b ∧ q.stale = false then [] else [⟨l, b, false, false⟩]

theorem refetch_eq (b : Fin 2) (u : ScanOut) : u.refetch b =
    { u.setBuffer b (emptiedBuffer (u.buffer b)) with records := u.records ++ askedAgain u.records b (u.buffer b) } := by
  have waits : (u.records.any fun r => r.buffer == b && !r.stale) = true ↔ ∃ q ∈ u.records, q.buffer = b ∧ q.stale = false := by
    simp
  unfold ScanOut.refetch emptiedBuffer askedAgain ScanOut.setBuffer ScanOut.buffer
  by_cases zero : b = 0
  · subst zero
    cases line : u.even.line with
    | none => simp [line]
    | some k =>
      by_cases found : ∃ q ∈ u.records, q.buffer = 0 ∧ q.stale = false
      · simp [line, waits.2 found, found]
      · simp [line, mt waits.1 found, found]
  · cases line : u.odd.line with
    | none => simp [line, zero]
    | some k =>
      by_cases found : ∃ q ∈ u.records, q.buffer = b ∧ q.stale = false
      · simp [line, zero, waits.2 found, found]
      · simp [line, zero, mt waits.1 found, found]

/-- What buffer 0 asks for is not buffer 1's. -/
theorem askedAgain_one_append (records : List FetchRecord) (x y : LineBuffer) :
    askedAgain (records ++ askedAgain records 0 x) 1 y = askedAgain records 1 y := by
  have same : (∃ q ∈ records ++ askedAgain records 0 x, q.buffer = 1 ∧ q.stale = false) ↔
      ∃ q ∈ records, q.buffer = 1 ∧ q.stale = false := by
    refine ⟨?_, fun ⟨q, hq, h⟩ => ⟨q, List.mem_append_left _ hq, h⟩⟩
    rintro ⟨q, hq, buffer, fresh⟩
    refine (List.mem_append.1 hq).elim (fun hq => ⟨q, hq, buffer, fresh⟩) fun hq => ?_
    unfold askedAgain at hq
    split at hq
    · exact nomatch hq
    · split at hq
      · exact nomatch hq
      · rw [List.mem_singleton.1 hq] at buffer
        exact absurd (show (0 : Fin 2) = 1 from buffer) (by decide)
  unfold askedAgain at same ⊢
  cases y.line with
  | none => rfl
  | some l => exact if_congr same rfl rfl

theorem scanPresent_eq (i : Nat) (u : ScanOut) :
    let staled := u.records.map FetchRecord.staled
    u.present i =
      { u with
        slot := some i, even := emptiedBuffer u.even, odd := emptiedBuffer u.odd,
        records := staled ++ askedAgain staled 0 u.even ++ askedAgain staled 1 u.odd } := by
  intro staled
  unfold ScanOut.present
  rw [refetch_eq 0, refetch_eq 1]
  have odd := askedAgain_one_append staled u.even u.odd
  exact congrArg (fun again : List FetchRecord =>
    { u with
      slot := some i, even := emptiedBuffer u.even, odd := emptiedBuffer u.odd,
      records := staled ++ askedAgain staled 0 u.even ++ again }) odd

/-! #### The step -/

theorem presentationStep_of_due {d : Decision} (decided : s.presentation.decision = some d)
    (due : d.target = s.timing.epoch) : s.presentationStep = s.applyDecision d.frame := by
  rw [State.presentationStep, decided]
  exact if_pos due

theorem applyDecision_of_stale {f g : FrameNo} (present : s.role.role ≠ .standby) (shown : s.presentation.shown = some g)
    (stale : laterThan f g = false) : s.applyDecision f = s.setPresentation
      { s.presentation with
        decision := none, repeated := bump s.presentation.repeated,
        staleDecision := bump s.presentation.staleDecision } := by
  simp [State.applyDecision, present, shown, stale, Presentation.repeats]

/-- The frame is later than the one shown, if any is. -/
theorem not_shownLater_iff {f : FrameNo} : (s.presentation.shown.any fun g => !laterThan f g) = false ↔
    ∀ g, s.presentation.shown = some g → laterThan f g = true := by
  cases s.presentation.shown <;> simp

theorem applyDecision_of_missed {f : FrameNo} (present : s.role.role ≠ .standby)
    (later : ∀ g, s.presentation.shown = some g → laterThan f g = true) (missing : s.slots.present f = none) :
    s.applyDecision f =
      { s with
        presentation :=
          { s.presentation with
            decision := none, repeated := bump s.presentation.repeated, missed := bump s.presentation.missed },
        notices := s.notices ||| 0x0010#16 } := by
  unfold State.applyDecision
  rw [if_neg present, not_shownLater_iff.2 later, missing]
  rfl

theorem applyDecision_of_held {f : FrameNo} {i : Nat} {m : SlotManager} (present : s.role.role ≠ .standby)
    (later : ∀ g, s.presentation.shown = some g → laterThan f g = true) (held : s.slots.present f = some (i, m)) :
    s.applyDecision f = s.presents f i m := by
  unfold State.applyDecision
  rw [if_neg present, not_shownLater_iff.2 later, held]
  rfl

theorem present_of_only {r : Slot} (hi : m.table[i]? = some r) (done : r.state = .complete) (frame : r.frame = some p)
    (only : ∀ (j : Nat) (q : Slot), m.table[j]? = some q → q.state = .complete → q.frame = some p → j = i) :
    m.present p = some
      (i,
        { m with
          table := m.table.map (Slot.presented p),
          complete := m.complete.filter (fun f => decide (f ≠ p ∧ laterThan p f = false)),
          skipped := bumpBy (m.table.countP fun q => decide (q.state = .complete) && q.frame.any (laterThan p)) m.skipped }) := by
  have skips : Slot.skippedBy p = fun q : Slot => decide (q.state = .complete) && q.frame.any (laterThan p) :=
    funext skippedBy_eq
  have drops : (fun f : FrameNo => decide (f ≠ p) && !laterThan p f) = fun f => decide (f ≠ p ∧ laterThan p f = false) := by
    funext f
    simp
  unfold SlotManager.present
  rw [completeIndex_eq_of_only hi done frame only, skips, drops]

/-- A frame presented from slot `i`, what is left of the slots being `m` (R35, R164). -/
theorem presents_spec (f : FrameNo) (i : Nat) (m : SlotManager) (s : State) : let t := s.presents f i m
    let staled := s.scan.records.map FetchRecord.staled
    t.presentation =
        { s.presentation with shown := some f, decision := none, presented := bump s.presentation.presented } ∧
      t.slots = m ∧
      t.scan =
        { s.scan with
          slot := some i, even := emptiedBuffer s.scan.even, odd := emptiedBuffer s.scan.odd, records := t.scan.records } ∧
      t.ingest = { s.ingest with queue := t.ingest.queue } ∧
      Granted (some i) s.transfer (staled ++ askedAgain staled 0 s.scan.even ++ askedAgain staled 1 s.scan.odd)
        s.ingest.queue t := by
  intro t staled
  let prior : State :=
    ((s.setSlots m).setPresentation
      { s.presentation with shown := some f, decision := none, presented := bump s.presentation.presented }).setScan
      (s.scan.present i)
  have left : t = prior.grant := rfl
  have kept : Frame [.ingest, .transfer, .scan] prior t := .grant prior
  have scan : t.scan = { s.scan.present i with records := t.scan.records } := scan_grant (s := prior)
  have granted : Granted (s.scan.present i).slot s.transfer (s.scan.present i).records s.ingest.queue t :=
    granted_grant (s := prior)
  rw [scanPresent_eq] at scan granted
  exact ⟨(kept.2 .presentation (by decide)).symm, (kept.2 .slots (by decide)).symm, scan, ingest_grant (s := prior), granted⟩

/-- What the presentation step makes of the blocks that it reads: whether the station is STANDBY, the epoch, the pending
decision and the slots alone count. -/
theorem presentationStep_congr {v w : State} (presentation : v.presentation = w.presentation) (slots : v.slots = w.slots)
    (epoch : v.timing.epoch = w.timing.epoch) (standby : v.role.role = .standby ↔ w.role.role = .standby)
    (slot : v.scan.slot = w.scan.slot) (miss : v.notices.getLsbD 4 = w.notices.getLsbD 4) :
    v.presentationStep.presentation = w.presentationStep.presentation ∧
      v.presentationStep.slots = w.presentationStep.slots ∧ v.presentationStep.scan.slot = w.presentationStep.scan.slot ∧
      v.presentationStep.notices.getLsbD 4 = w.presentationStep.notices.getLsbD 4 := by
  unfold State.presentationStep
  rw [presentation, epoch]
  cases w.presentation.decision with
  | none => exact ⟨rfl, slots, slot, miss⟩
  | some d =>
    dsimp only
    by_cases due : d.target = w.timing.epoch
    · rw [if_pos due, if_pos due]
      unfold State.applyDecision
      rw [presentation, slots]
      dsimp only
      by_cases idle : w.role.role = .standby
      · rw [if_pos idle, if_pos (standby.2 idle)]
        exact ⟨rfl, slots, slot, miss⟩
      · rw [if_neg idle, if_neg (mt standby.1 idle)]
        by_cases stale : (w.presentation.shown.any fun g => !laterThan d.frame g) = true
        · rw [if_pos stale, if_pos stale]
          exact ⟨rfl, slots, slot, miss⟩
        · rw [if_neg stale, if_neg stale]
          cases w.slots.present d.frame with
          | none => exact ⟨rfl, slots, slot, by simp [State.raise, Notice.bit]⟩
          | some x =>
            have left := presents_spec d.frame x.1 x.2 v
            have right := presents_spec d.frame x.1 x.2 w
            refine ⟨left.1.trans ?_, left.2.1.trans right.2.1.symm, ?_, ?_⟩
            · rw [right.1, presentation]
            · exact (congrArg ScanOut.slot left.2.2.1).trans (congrArg ScanOut.slot right.2.2.1).symm
            · rw [← (Frame.presents v d.frame x.1 x.2).2 .notices (by decide),
                ← (Frame.presents w d.frame x.1 x.2).2 .notices (by decide)]
              exact miss
    · rw [if_neg due, if_neg due]
      by_cases later : laterThan d.target w.timing.epoch = true
      · rw [if_pos later, if_pos later]
        exact ⟨rfl, slots, slot, miss⟩
      · rw [if_neg later, if_neg later]
        exact ⟨rfl, slots, slot, miss⟩

end Sys2Proof

/-! ### The presentation step of a frame start -/

namespace Sys2Proof

open Sys2Proof.Machine

variable {s : State} {e : Elapsed} {c : Settings} {timer : FrameTimer} {order : FrameOrder} {cut : Bool} {d : Tick}
  {x : FramePart} {l front rest : List FramePart}

/-! #### The role through the parts -/

theorem role_framePart (other : x ≠ .role) : (s.framePart c cut d x).role = s.role := by
  refine ((frame_framePart cut d x).2 .role ?_).symm
  cases x <;> simp_all [partChanges]

theorem role_roleFrameStart : ((s.roleFrameStart c).role.role = .standby ↔ s.role.role = .standby) ∧
    (s.role.role = .origin → (s.roleFrameStart c).role.role = .origin) := by
  cases role : s.role.role with
  | origin =>
    rw [roleFrameStart_of_kept (.inl role)]
    exact ⟨iff_of_eq (congrArg (· = _) role), fun _ => role⟩
  | standby =>
    rw [roleFrameStart_of_kept (.inr role)]
    exact ⟨iff_of_eq (congrArg (· = _) role), nofun⟩
  | follower =>
    refine ⟨⟨fun h => ?_, nofun⟩, nofun⟩
    by_cases may : MayClaim c s
    · rw [roleFrameStart_of_claim may (.inl role), claim_eq] at h
      exact nomatch h
    · rw [roleFrameStart_of_follower may role] at h
      exact nomatch role.symm.trans h
  | listening =>
    refine ⟨⟨fun h => ?_, nofun⟩, nofun⟩
    by_cases four : 3 ≤ s.role.listening
    · by_cases may : MayClaim c s
      · rw [roleFrameStart_of_claim may (.inr ⟨role, four⟩), claim_eq] at h
        exact nomatch h
      · rw [roleFrameStart_of_end may role four] at h
        exact nomatch h
    · rw [roleFrameStart_of_listening role (Nat.not_le.1 four)] at h
      exact nomatch role.symm.trans h

theorem standby_framePart : (s.framePart c cut d x).role.role = .standby ↔ s.role.role = .standby := by
  by_cases is : x = .role
  · subst is
    exact role_roleFrameStart.1
  · rw [role_framePart is]

theorem standby_startRun : (startRun c cut d l s).role.role = .standby ↔ s.role.role = .standby := by
  induction l generalizing s with
  | nil => exact .rfl
  | cons x l ih => exact ih.trans standby_framePart

/-- A frame start leaves an ORIGIN what it is. -/
theorem origin_startRun (origin : s.role.role = .origin) : (startRun c cut d l s).role.role = .origin := by
  induction l generalizing s with
  | nil => exact origin
  | cons x l ih =>
    refine ih ?_
    by_cases is : x = .role
    · subst is
      exact role_roleFrameStart.2 origin
    · rw [role_framePart is]
      exact origin

/-- At a station that is not ORIGIN after the frame start, nothing is composed at it. -/
theorem startRun_field_of_not_origin {α : Type} {f : State → α}
    (keeps : ∀ x ∈ l, ∀ s : State, s.loader.settled = some c → (x = .compose → s.role.role ≠ .origin) →
      f (s.framePart c cut d x) = f s)
    (settled : s.loader.settled = some c) (other : (startRun c cut d l s).role.role ≠ .origin) :
    f (startRun c cut d l s) = f s := by
  induction l generalizing s with
  | nil => rfl
  | cons x l ih =>
    have now : s.role.role ≠ .origin := fun k => other (origin_startRun k)
    have next : (s.framePart c cut d x).loader.settled = some c := (congrArg Loader.settled (loader_framePart cut d x)).trans settled
    exact (ih (fun y hy => keeps y (List.mem_cons_of_mem _ hy)) next other).trans
      (keeps x List.mem_cons_self s settled fun _ => now)

theorem composition_of_not_origin (other : s.role.role ≠ .origin) : s.composition c d = s := if_neg other

/-! #### The presentation through the parts -/

/-- What the composition leaves of the Presentation Controller. -/
def stepPart (p : Presentation) : Presentation := { p with decision := none, decisionsMade := 0 }

theorem eq_of_stepPart {p q : Presentation} (same : stepPart p = stepPart q) :
    p = { q with decision := p.decision, decisionsMade := p.decisionsMade } := by
  obtain ⟨⟩ := p
  obtain ⟨⟩ := q
  unfold stepPart at same
  simp only [Presentation.mk.injEq, true_and] at same ⊢
  exact same

theorem presentation_composition : (s.composition c d).presentation =
    if s.role.role = .origin then s.presentation.composed s.timing.epoch (s.decisionOf c) else s.presentation := by
  unfold State.composition
  by_cases origin : s.role.role = .origin
  · rw [if_pos origin, if_pos origin]
    refine ((Frame.offerBeat _ _).2 .presentation (by decide)).symm.trans ?_
    exact ((Frame.passTicks _ _).2 .presentation (by decide)).symm
  · rw [if_neg origin, if_neg origin]

theorem stepPart_composition : stepPart (s.composition c d).presentation = stepPart s.presentation := by
  rw [presentation_composition]
  split
  · unfold Presentation.composed
    cases s.decisionOf c <;> rfl
  · rfl

theorem slot_setBuffer (b : Fin 2) (x : LineBuffer) (u : ScanOut) : (u.setBuffer b x).slot = u.slot := by
  unfold ScanOut.setBuffer
  split <;> rfl

theorem slot_requestFetch (k : Nat) : (s.requestFetch k).scan.slot = s.scan.slot := by
  have scan := (requestFetch_spec (s := s) (k := k)).1
  rw [scan, request_eq]

theorem slot_beginLine (f : Nat) : (s.beginLine c f).scan.slot = s.scan.slot := by
  unfold State.beginLine
  dsimp only
  split
  · split
    · exact slot_requestFetch 0
    · split
      · exact slot_requestFetch 1
      · rfl
  · split
    · have taken : (s.setScan (s.scan.takeLine (f - c.vb))).scan.slot = s.scan.slot := by
        rw [State.setScan_scan, takeLine_eq]
      split
      · exact (slot_requestFetch _).trans taken
      · exact taken
    · rfl

theorem slot_framePart (other : x ≠ .present) : (s.framePart c cut d x).scan.slot = s.scan.slot := by
  cases x with
  | present => exact absurd rfl other
  | settle => rfl
  | firstLine => exact slot_beginLine 0
  | role | compose | holds | offer | expire =>
    exact congrArg ScanOut.slot ((frame_framePart cut d _).2 .scan (by decide)).symm

/-- At its part the presentation step meets the presentation, the slots and the scan slot as they stood, under the new
epoch; after it, the composition at an ORIGIN alone reaches the Presentation Controller. -/
theorem started_present (settled : s.loader.settled = some c) :
    let t := started c timer order s
    let u := State.presentationStep { s with timing := { s.timing with epoch := s.timing.epoch + 1 } }
    stepPart t.presentation = stepPart u.presentation ∧
      (t.role.role ≠ .origin → t.presentation = u.presentation) ∧ t.slots = u.slots ∧ t.scan.slot = u.scan.slot ∧
      t.notices.getLsbD 4 = u.notices.getLsbD 4 := by
  intro t u
  obtain ⟨front, rest, split⟩ := exists_splitAt order .present
  let cut := cutsFrame c timer.last timer.next
  let base := s.timingFrameStart c timer.next
  let v := startRun c cut order.composeTicks front base
  let w : State := { s with timing := { s.timing with epoch := s.timing.epoch + 1 } }
  have begun : Frame [.now, .timing, .notices] s base := .timingFrameStart s c timer.next
  have base_settled : base.loader.settled = some c := started_settled settled _
  have late : FramePart.compose ∉ front := split.not_mem_front (FrameOrder.taken_spec order).2.2.2.1
  have unpresented (l : List FramePart) (absent : FramePart.present ∉ l) {x : FramePart} (hx : x ∈ l) : x ≠ .present :=
    fun k => absent (k ▸ hx)
  have before_presentation : v.presentation = w.presentation := by
    refine ((begun.2 .presentation (by decide)).trans (same_startRun (y := .presentation) fun x hx => ?_)).symm
    have other := unpresented front split.not_front hx
    have earlier : x ≠ .compose := fun k => late (k ▸ hx)
    cases x <;> simp_all [partChanges]
  have kept_slots (l : List FramePart) (absent : FramePart.present ∉ l) (a : State) :
      (startRun c cut order.composeTicks l a).slots = a.slots := by
    refine (same_startRun (y := .slots) fun x hx => ?_).symm
    have other := unpresented l absent hx
    cases x <;> simp_all [partChanges]
  have kept_slot (l : List FramePart) (absent : FramePart.present ∉ l) (a : State) (ha : a.loader.settled = some c) :
      (startRun c cut order.composeTicks l a).scan.slot = a.scan.slot :=
    startRun_field (f := fun a : State => a.scan.slot)
      (fun x hx _ _ => slot_framePart (unpresented l absent hx)) ha
  have kept_miss (l : List FramePart) (absent : FramePart.present ∉ l) (a : State) :
      (startRun c cut order.composeTicks l a).notices.getLsbD 4 = a.notices.getLsbD 4 := by
    refine (Raises.startRun (bits := [0, 1, 2, 3]) fun x hx => ?_).2 4 (by decide)
    have other := unpresented l absent hx
    cases x <;> simp_all [partNotices]
  have start : StartFields (s.timing.startFrame c.period timer.next) v :=
    startFields_startRun startFields_timingFrameStart base_settled
  obtain ⟨presentation, slots, slot, miss⟩ := presentationStep_congr (v := v) (w := w) before_presentation
    ((kept_slots front split.not_front base).trans (begun.2 .slots (by decide)).symm) start.2.1
    (standby_startRun.trans (iff_of_eq (congrArg (fun r : RoleUnit => r.role = .standby) (begun.2 .role (by decide)).symm)))
    ((kept_slot front split.not_front base base_settled).trans
      (congrArg ScanOut.slot (begun.2 .scan (by decide))).symm)
    ((kept_miss front split.not_front base).trans ((Raises.timingFrameStart timer.next).2 4 (by decide)))
  have whole : t = startRun c cut order.composeTicks rest v.presentationStep := started_split split
  have v_settled : v.presentationStep.loader.settled = some c :=
    (congrArg Loader.settled (loader_framePart (s := v) (c := c) cut order.composeTicks .present)).trans (settled_startRun base_settled)
  have keeps {α : Type} (f : Presentation → α) {x : FramePart} (hx : x ≠ .present) (hc : x ≠ .compose) (a : State) :
      f (a.framePart c cut order.composeTicks x).presentation = f a.presentation := by
    refine congrArg f ((frame_framePart cut _ x).2 .presentation ?_).symm
    cases x <;> simp_all [partChanges]
  rw [whole]
  refine ⟨?_, fun other => ?_, (kept_slots rest split.not_rest _).trans slots,
    (kept_slot rest split.not_rest _ v_settled).trans slot, (kept_miss rest split.not_rest _).trans miss⟩
  · refine (startRun_field (f := fun a : State => stepPart a.presentation) (fun x hx a _ => ?_) v_settled).trans
      (congrArg stepPart presentation)
    by_cases composes : x = .compose
    · subst composes
      exact stepPart_composition
    · exact keeps stepPart (unpresented rest split.not_rest hx) composes a
  · refine (startRun_field_of_not_origin (f := fun a : State => a.presentation) (fun x hx a _ quiet => ?_) v_settled
      other).trans presentation
    by_cases composes : x = .compose
    · subst composes
      exact congrArg State.presentation (composition_of_not_origin (quiet rfl))
    · exact keeps id (unpresented rest split.not_rest hx) composes a

/-- Settles O24: the step by the pending decision and the slots, and the step within a frame start. -/
theorem presentationStepApplies : Obligations.PresentationStepApplies := by
  refine ⟨fun s present => ?_, fun e order c timer s runs => ?_⟩
  · intro p repeats emptied staled again
    refine ⟨fun none_decided => ?_, fun d decided early => ?_, fun d decided other late => ?_, fun d decided due =>
      ⟨fun ⟨g, shown, stale⟩ => ?_, fun later => ⟨fun missing => ?_, fun i r hi done frame only => ?_⟩⟩⟩
    · rw [State.presentationStep, none_decided]
      rfl
    · have other : d.target ≠ s.timing.epoch := laterThan_ne early
      rw [State.presentationStep, decided]
      exact (if_neg other).trans (if_pos early)
    · rw [State.presentationStep, decided]
      exact (if_neg other).trans (if_neg (Bool.eq_false_iff.1 late))
    · rw [presentationStep_of_due decided due, applyDecision_of_stale present shown stale]
      rfl
    · have absent : s.slots.present d.frame = none := by rw [SlotManager.present, completeIndex_eq_none missing]
      rw [presentationStep_of_due decided due, applyDecision_of_missed present later absent]
    · have held := present_of_only hi done frame only
      have step : s.presentationStep = _ := (presentationStep_of_due decided due).trans
        (applyDecision_of_held present later held)
      rw [step]
      obtain ⟨presentation, slots, scan, ingest, granted⟩ := presents_spec d.frame i _ s
      refine ⟨presentation, scan, ingest, granted, ?_, fun j q apart hj => ?_, ?_, Frame.presents _ _ _ _⟩
      · rw [slots, List.getElem?_map, hi]
        exact congrArg some (presented_of_done done frame)
      · have other : ¬ (q.state = .complete ∧ q.frame = some d.frame) := fun held => apart (only j q hj held.1 held.2)
        rw [slots, List.getElem?_map, hj]
        exact congrArg some (presented_of_other other)
      · rw [slots]
  · intro b u
    have ⟨_, settled, _, _⟩ := runs
    obtain ⟨kept, other, slots, slot, miss⟩ := started_present (timer := timer) (order := order) settled
    exact ⟨started c timer order b, exec_frameStart_of_runs runs, eq_of_stepPart kept, other, slots, slot, miss⟩

end Sys2Proof

/-! ### Scan-out through a frame start (R164 to R169) -/

namespace Sys2Proof

open Sys2Proof.Machine

variable {s v w : State} {c : Settings} {timer : FrameTimer} {order : FrameOrder} {cut : Bool} {d : Tick}
  {x : FramePart} {l : List FramePart} {i : Nat}

/-! #### The presentation step presents a frame, or repeats the one shown (R37) -/

/-- The shown frame stays, REPEATED counts, and nothing but the Presentation Controller and MISS is reached. -/
def RepeatsFrom (s t : State) : Prop :=
  t.presentation.shown = s.presentation.shown ∧ t.presentation.presented = s.presentation.presented ∧
    t.presentation.repeated = bump s.presentation.repeated ∧ Frame [.presentation, .notices] s t

theorem RepeatsFrom.of_setPresentation {p : Presentation} (shown : p.shown = s.presentation.shown)
    (presented : p.presented = s.presentation.presented) (repeated : p.repeated = bump s.presentation.repeated) :
    RepeatsFrom s (s.setPresentation p) :=
  ⟨shown, presented, repeated, (Frame.setPresentation s p).mono (by decide)⟩

theorem presentationStep_cases (s : State) : RepeatsFrom s s.presentationStep ∨
    ∃ f i m, s.presentationStep = s.presents f i m ∧ s.presentation.shown ≠ some f := by
  unfold State.presentationStep
  split
  · exact .inl (.of_setPresentation rfl rfl rfl)
  · next d _ =>
    split
    · unfold State.applyDecision
      dsimp only
      split
      · exact .inl (.of_setPresentation rfl rfl rfl)
      · split
        · exact .inl (.of_setPresentation rfl rfl rfl)
        · next later =>
          split
          · next i m _ =>
            have later := not_shownLater_iff.1 (Bool.eq_false_iff.2 later)
            exact .inr ⟨d.frame, i, m, rfl, fun shown => absurd (later d.frame shown) (by simp [laterThan_irrefl])⟩
          · exact .inl ⟨rfl, rfl, rfl,
              ((Frame.setPresentation s _).mono (by decide)).trans ((Frame.raise _ .miss).mono (by decide))⟩
    · split
      · exact .inl (.of_setPresentation rfl rfl rfl)
      · exact .inl (.of_setPresentation rfl rfl rfl)

theorem shown_presents (f : FrameNo) (i : Nat) (m : SlotManager) : (s.presents f i m).presentation.shown = some f := by
  rw [(presents_spec f i m s).1]

/-! #### The frame memory's side -/

/-- Two states agree on the Scan-Out Unit, the transfer and the Frame Assembler. -/
def SameMemorySide (s t : State) : Prop := s.scan = t.scan ∧ s.transfer = t.transfer ∧ s.ingest = t.ingest

theorem SameMemorySide.of_frame {l : List Part} (k : Frame l s v) (scan : Part.scan ∉ l) (transfer : Part.transfer ∉ l)
    (ingest : Part.ingest ∉ l) : SameMemorySide s v :=
  ⟨k.2 .scan scan, k.2 .transfer transfer, k.2 .ingest ingest⟩

/-- The parts of a frame start that reach the frame memory's side. -/
def memoryParts : List FramePart := [.settle, .present, .firstLine]

theorem sameMemorySide_startRun (apart : ∀ x ∈ l, x ∉ memoryParts) : SameMemorySide s (startRun c cut d l s) := by
  have quiet (y : Part) (hy : y = .scan ∨ y = .transfer ∨ y = .ingest) : ∀ x ∈ l, y ∉ partChanges x := by
    intro x hx
    have other := apart x hx
    rcases hy with rfl | rfl | rfl <;> cases x <;> simp_all [partChanges, memoryParts]
  exact ⟨same_startRun (quiet .scan (.inl rfl)), same_startRun (quiet .transfer (.inr (.inl rfl))),
    same_startRun (quiet .ingest (.inr (.inr rfl)))⟩

theorem shown_startRun (absent : FramePart.present ∉ l) (settled : s.loader.settled = some c) :
    (startRun c cut d l s).presentation.shown = s.presentation.shown := by
  refine startRun_field (f := fun a : State => a.presentation.shown) (fun x hx a _ => ?_) settled
  by_cases is : x = .present
  · exact absurd (is ▸ hx) absent
  · exact shown_framePart is

/-- The parts that reach the frame memory's side, in the order taken: the frame that has ended is settled first. -/
theorem exists_memoryOrder (order : FrameOrder) : ∃ (x y : FramePart) (l0 l1 l2 l3 : List FramePart),
    order.taken = l0 ++ .settle :: (l1 ++ x :: (l2 ++ y :: l3)) ∧ (∀ z ∈ l0 ++ l1 ++ l2 ++ l3, z ∉ memoryParts) ∧
      ((x = .present ∧ y = .firstLine ∧ FramePart.before order.taken .firstLine .present = false) ∨
        (x = .firstLine ∧ y = .present ∧ FramePart.before order.taken .present .firstLine = false)) := by
  have once {x y : FramePart} {l0 l1 l2 l3 : List FramePart}
      (taken : order.taken = l0 ++ .settle :: (l1 ++ x :: (l2 ++ y :: l3)))
      (two : (x = .present ∧ y = .firstLine) ∨ (x = .firstLine ∧ y = .present)) :
      ∀ z ∈ l0 ++ l1 ++ l2 ++ l3, z ∉ memoryParts := by
    intro z hz memory
    have more : 0 < (l0 ++ l1 ++ l2 ++ l3).count z := List.count_pos_iff.2 hz
    have nodup := List.nodup_iff_count_le_one.1 (nodup_taken order) z
    rw [taken] at nodup
    simp only [memoryParts, List.mem_cons, List.not_mem_nil, or_false] at memory
    simp only [List.count_append, List.count_cons] at nodup more
    rcases two with ⟨rfl, rfl⟩ | ⟨rfl, rfl⟩ <;> rcases memory with rfl | rfl | rfl <;> simp at nodup <;> omega
  obtain ⟨front, rest, split⟩ := exists_splitAt order .present
  obtain ⟨-, -, -, -, -, settle_present, settle_line⟩ := FrameOrder.taken_spec order
  have whole := split.taken
  by_cases first : FramePart.firstLine ∈ front
  · have early := split.mem_front_iff.1 first
    obtain ⟨a, l2, rfl⟩ := List.append_of_mem first
    have apart : FramePart.firstLine ∉ a := by
      have nodup := nodup_taken order
      rw [whole, List.append_assoc] at nodup
      exact fun k => List.disjoint_of_nodup_append nodup k List.mem_cons_self
    have line : order.taken = a ++ .firstLine :: (l2 ++ .present :: rest) := by rw [whole, List.append_assoc]; rfl
    have before : FramePart.settle ∈ a := (before_iff_mem apart).1 (line ▸ settle_line)
    obtain ⟨l0, l1, rfl⟩ := List.append_of_mem before
    have taken : order.taken = l0 ++ .settle :: (l1 ++ .firstLine :: (l2 ++ .present :: rest)) := by
      rw [line, List.append_assoc]; rfl
    refine ⟨_, _, l0, l1, l2, rest, taken, once taken (.inr ⟨rfl, rfl⟩), .inr ⟨rfl, rfl, ?_⟩⟩
    unfold FramePart.before at early ⊢
    simp only [decide_eq_true_eq, decide_eq_false_iff_not] at early ⊢
    omega
  · have later : FramePart.firstLine ∈ rest := split.mem_rest_iff.2 ⟨by decide, first⟩
    obtain ⟨l2, l3, rfl⟩ := List.append_of_mem later
    obtain ⟨l0, l1, rfl⟩ := List.append_of_mem (split.mem_front_iff.2 settle_present)
    have taken : order.taken = l0 ++ .settle :: (l1 ++ .present :: (l2 ++ .firstLine :: l3)) := by
      rw [whole, List.append_assoc]; rfl
    exact ⟨_, _, l0, l1, l2, l3, taken, once taken (.inl ⟨rfl, rfl⟩),
      .inl ⟨rfl, rfl, Bool.eq_false_iff.2 (mt split.mem_front_iff.2 first)⟩⟩

end Sys2Proof

/-! ### What a frame start asks of the frame memory (R162, R164 to R169) -/

namespace Sys2Proof

open Sys2Proof.Machine

variable {s t v w : State} {c : Settings} {timer : FrameTimer} {order : FrameOrder} {cut : Bool} {d : Tick}
  {slot : Option Nat} {transfer : Option Transfer} {records : List FetchRecord} {queue : List LineWrite} {i : Nat}
  {u : ScanOut} {b : Fin 2} {x : LineBuffer}

/-! #### Grants -/

theorem Granted.of_same (same : SameMemorySide s t) (h : Granted slot transfer records queue s) :
    Granted slot transfer records queue t := by
  obtain ⟨scan, transfer, ingest⟩ := same
  unfold Granted at h ⊢
  rw [← scan, ← transfer, ← ingest]
  exact h

/-- With nothing to grant, or a transfer in progress, all stays as it is. -/
theorem Granted.nothing (h : Granted slot transfer records queue t) (quiet : transfer = none → queue = [])
    (waits : transfer = none → slot = none ∨ ∀ x ∈ records, x.inProgress = true) :
    t.transfer = transfer ∧ t.scan.records = records ∧ t.ingest.queue = queue := by
  obtain ⟨busy, -, idle⟩ := h
  cases is : transfer with
  | some x => exact is ▸ busy (is ▸ nofun)
  | none =>
    obtain ⟨same, -, empty⟩ := idle is (waits is)
    have none_queued := quiet is
    obtain ⟨free, left⟩ := empty none_queued
    exact ⟨free, same, left.trans none_queued.symm⟩

/-! #### The frame that has ended -/

/-- The fetch records that the settling of a frame leaves (R167). -/
def settledRecords (records : List FetchRecord) : List FetchRecord :=
  (records.filter fun r => r.inProgress).map fun r => { r with stale := true }

theorem settle_eq (cut : Bool) (u : ScanOut) : u.settle cut =
    { u with
      records := settledRecords u.records, even := .released, odd := .released, output := .background,
      cutFrames := if cut = true then bump u.cutFrames else u.cutFrames } := by
  have staled : (u.records.filter (·.inProgress)).map FetchRecord.staled = settledRecords u.records := by
    refine List.map_congr_left fun r hr => ?_
    exact if_pos (List.mem_filter.1 hr).2
  unfold ScanOut.settle
  rw [staled]

theorem settledRecords_all {r : FetchRecord} (hr : r ∈ settledRecords records) : r.inProgress = true ∧ r.stale = true := by
  obtain ⟨q, hq, rfl⟩ := List.mem_map.1 hr
  exact ⟨(List.mem_filter.1 hq).2, rfl⟩

theorem staled_settledRecords : (settledRecords records).map FetchRecord.staled = settledRecords records := by
  refine (List.map_congr_left (g := id) fun r hr => ?_).trans (List.map_id _)
  obtain ⟨inProgress, stale⟩ := settledRecords_all hr
  obtain ⟨l, b, p, q⟩ := r
  cases inProgress
  cases stale
  rfl

/-- Behind settled records a buffer with a LINE asks again. -/
theorem askedAgain_settled {more : List FetchRecord} {l : Nat} (line : x.line = some l)
    (stale : ∀ q ∈ more, q.buffer = b → q.stale = true) :
    askedAgain (settledRecords records ++ more) b x = [⟨l, b, false, false⟩] := by
  unfold askedAgain
  rw [line]
  refine if_neg ?_
  rintro ⟨q, hq, buffer, fresh⟩
  have old : q.stale = true := (List.mem_append.1 hq).elim (fun h => (settledRecords_all h).2) fun h => stale q h buffer
  rw [old] at fresh
  exact nomatch fresh

/-! #### The first line (R165) -/

theorem beginLine_two (two : c.vb = 2) (s : State) : let t := s.beginLine c 0
    t.scan = { s.scan with even := ⟨some 0, false, []⟩, records := t.scan.records } ∧
      t.ingest = { s.ingest with queue := t.ingest.queue } ∧
      Granted s.scan.slot s.transfer
        (if s.scan.slot = none then s.scan.records else s.scan.records ++ [⟨0, 0, false, false⟩]) s.ingest.queue t := by
  have line : s.beginLine c 0 = s.requestFetch 0 := beginLine_of_first (k := 0) (by decide) (by omega)
  obtain ⟨scan, ingest, granted⟩ := requestFetch_spec (s := s) (k := 0)
  rw [request_eq] at scan
  rw [line]
  exact ⟨scan, ingest, granted⟩

/-! #### The Scan-Out Unit after the frame start -/

/-- The Scan-Out Unit as it has settled the frame that has ended, but for the scan slot, line buffer 0 and the records. -/
def ScanStands (u : ScanOut) (even : LineBuffer) (t : State) : Prop :=
  t.scan = { u with slot := t.scan.slot, even := even, records := t.scan.records }

theorem ScanStands.of_same (same : SameMemorySide s t) (h : ScanStands u x s) : ScanStands u x t := by
  unfold ScanStands at h ⊢
  rw [← same.1]
  exact h

/-- A presentation leaves line buffers that hold no pixels as they are. -/
theorem ScanStands.presentationStep (odd : u.odd = .released) (empty : emptiedBuffer x = x) (h : ScanStands u x s) :
    ScanStands u x s.presentationStep := by
  rcases presentationStep_cases s with ⟨-, -, -, frame⟩ | ⟨f, i, m, step, -⟩
  · exact h.of_same (.of_frame frame (by decide) (by decide) (by decide))
  · have scan := (presents_spec f i m s).2.2.1
    rw [h] at scan
    unfold ScanStands
    rw [step, scan, empty, odd]
    rfl

theorem ScanStands.beginLine (two : c.vb = 2) (h : ScanStands u x s) :
    ScanStands u ⟨some 0, false, []⟩ (s.beginLine c 0) := by
  have scan := (beginLine_two two s).1
  rw [h] at scan
  unfold ScanStands
  rw [scan]

/-! #### The two orders of the presentation step and the first line -/

/-- From the settled frame `v` the presentation step is taken first, then the first line. -/
def PresentsFirst (c : Settings) (order : FrameOrder) (v w t : State) : Prop :=
  FramePart.before order.taken .firstLine .present = false ∧ SameMemorySide v.presentationStep w ∧
    SameMemorySide (w.beginLine c 0) t ∧ t.presentation.shown = v.presentationStep.presentation.shown

/-- From the settled frame `v` the first line is taken first, then the presentation step. -/
def LineFirst (c : Settings) (order : FrameOrder) (v w t : State) : Prop :=
  FramePart.before order.taken .present .firstLine = false ∧ SameMemorySide (v.beginLine c 0) w ∧
    w.presentation.shown = v.presentation.shown ∧ SameMemorySide w.presentationStep t ∧
    t.presentation.shown = w.presentationStep.presentation.shown

theorem exists_settled (settled : s.loader.settled = some c) : ∃ v w : State,
    v.scan = s.scan.settle (cutsFrame c timer.last timer.next) ∧ v.transfer = s.transfer ∧ v.ingest = s.ingest ∧
      v.presentation.shown = s.presentation.shown ∧
      (PresentsFirst c order v w (started c timer order s) ∨ LineFirst c order v w (started c timer order s)) := by
  obtain ⟨x, y, l0, l1, l2, l3, taken, apart, two⟩ := exists_memoryOrder order
  let cut := cutsFrame c timer.last timer.next
  let run (l : List FramePart) (a : State) : State := startRun c cut order.composeTicks l a
  let base := s.timingFrameStart c timer.next
  let a := run l0 base
  let v := run l1 (a.framePart c cut order.composeTicks .settle)
  let w := run l2 (v.framePart c cut order.composeTicks x)
  have whole : started c timer order s = run l3 (w.framePart c cut order.composeTicks y) := by
    unfold started
    rw [taken]
    simp only [startRun, List.foldl_append, List.foldl_cons]
    rfl
  have away {l : List FramePart} (sub : ∀ z ∈ l, z ∈ l0 ++ l1 ++ l2 ++ l3) (a : State) : SameMemorySide a (run l a) :=
    sameMemorySide_startRun fun z hz => apart z (sub z hz)
  have absent {l : List FramePart} (sub : ∀ z ∈ l, z ∈ l0 ++ l1 ++ l2 ++ l3) : FramePart.present ∉ l :=
    fun k => apart _ (sub _ k) (by decide)
  have sub0 : ∀ z ∈ l0, z ∈ l0 ++ l1 ++ l2 ++ l3 := fun z hz => by simp [hz]
  have sub1 : ∀ z ∈ l1, z ∈ l0 ++ l1 ++ l2 ++ l3 := fun z hz => by simp [hz]
  have sub2 : ∀ z ∈ l2, z ∈ l0 ++ l1 ++ l2 ++ l3 := fun z hz => by simp [hz]
  have sub3 : ∀ z ∈ l3, z ∈ l0 ++ l1 ++ l2 ++ l3 := fun z hz => by simp [hz]
  have begun : Frame [.now, .timing, .notices] s base := .timingFrameStart s c timer.next
  have base_same : SameMemorySide s base := .of_frame begun (by decide) (by decide) (by decide)
  have ha : a.loader.settled = some c := settled_startRun (started_settled settled _)
  have hv : v.loader.settled = some c := settled_startRun ha
  obtain ⟨scan0, transfer0, ingest0⟩ := away sub0 base
  obtain ⟨scan1, transfer1, ingest1⟩ := away sub1 (a.framePart c cut order.composeTicks .settle)
  have next {b : State} {z : FramePart} (hb : b.loader.settled = some c) :
      (b.framePart c cut order.composeTicks z).loader.settled = some c :=
    (congrArg Loader.settled (loader_framePart cut order.composeTicks z)).trans hb
  have shown : v.presentation.shown = s.presentation.shown :=
    (shown_startRun (absent sub1) (next ha)).trans ((shown_startRun (absent sub0) (started_settled settled _)).trans
      (congrArg Presentation.shown (begun.2 .presentation (by decide))).symm)
  have shown2 : w.presentation.shown = (v.framePart c cut order.composeTicks x).presentation.shown :=
    shown_startRun (absent sub2) (next hv)
  have hw : w.loader.settled = some c := settled_startRun (next hv)
  have shown3 : (started c timer order s).presentation.shown = (w.framePart c cut order.composeTicks y).presentation.shown := by
    rw [whole]
    exact shown_startRun (absent sub3) (next hw)
  refine ⟨v, w, ?_, ?_, ?_, shown, ?_⟩
  · refine scan1.symm.trans (congrArg (ScanOut.settle cut) ?_)
    exact scan0.symm.trans base_same.1.symm
  · exact transfer1.symm.trans (transfer0.symm.trans base_same.2.1.symm)
  · exact ingest1.symm.trans (ingest0.symm.trans base_same.2.2.symm)
  · rcases two with ⟨rfl, rfl, order_eq⟩ | ⟨rfl, rfl, order_eq⟩
    · refine .inl ⟨order_eq, away sub2 _, whole ▸ away sub3 _, shown3.trans ?_⟩
      exact (shown_framePart (by decide)).trans shown2
    · exact .inr ⟨order_eq, away sub2 _, shown2.trans (shown_framePart (by decide)), whole ▸ away sub3 _, shown3⟩

end Sys2Proof

/-! ### The Scan-Out Unit and the frame memory after a frame start -/

namespace Sys2Proof

open Sys2Proof.Machine

variable {s t v w b : State} {c : Settings} {timer : FrameTimer} {order : FrameOrder} {cut : Bool} {i j : Nat}
  {records : List FetchRecord} {x : LineBuffer}

/-- The fetch of active line 0, asked for and waiting. -/
def firstAsked : FetchRecord := ⟨0, 0, false, false⟩

theorem staled_append_asked : (settledRecords records ++ [firstAsked]).map FetchRecord.staled =
    settledRecords records ++ [firstAsked] := by
  rw [List.map_append, staled_settledRecords]
  rfl

theorem askedAgain_released {b : Fin 2} : askedAgain records b .released = [] := rfl

theorem askedAgain_of_waiting {l : Nat} (line : x.line = some l) :
    askedAgain (settledRecords records ++ [firstAsked]) 0 x = [] := by
  unfold askedAgain
  rw [line]
  exact if_pos ⟨firstAsked, by simp, rfl, rfl⟩

/-- A frame memory that the settled frame `v` of `b` has not reached yet. -/
structure SettledFrom (b v : State) (cut : Bool) : Prop where
  scan : v.scan = b.scan.settle cut
  transfer : v.transfer = b.transfer
  ingest : v.ingest = b.ingest

namespace SettledFrom

variable (h : SettledFrom b v cut)
include h

theorem of_same (same : SameMemorySide v w) : SettledFrom b w cut :=
  ⟨same.1.symm.trans h.scan, same.2.1.symm.trans h.transfer, same.2.2.symm.trans h.ingest⟩

theorem settles : v.scan.records = settledRecords b.scan.records := by rw [h.scan, settle_eq]

theorem slot : v.scan.slot = b.scan.slot := by rw [h.scan, settle_eq]

theorem stands : ScanStands (b.scan.settle cut) .released v := by
  unfold ScanStands
  rw [h.scan, settle_eq]

/-- A presentation asks for nothing behind released buffers. -/
theorem presents (f : FrameNo) (i : Nat) (m : SlotManager) :
    Granted (some i) b.transfer (settledRecords b.scan.records) b.ingest.queue (v.presents f i m) := by
  have granted := (presents_spec f i m v).2.2.2.2
  have even : v.scan.even = .released := by rw [h.scan, settle_eq]
  have odd : v.scan.odd = .released := by rw [h.scan, settle_eq]
  rw [even, odd, askedAgain_released, askedAgain_released, List.append_nil, List.append_nil, h.settles,
    staled_settledRecords, h.transfer, h.ingest] at granted
  exact granted

theorem line (two : c.vb = 2) : Granted b.scan.slot b.transfer
    (if b.scan.slot = none then settledRecords b.scan.records else settledRecords b.scan.records ++ [firstAsked])
    b.ingest.queue (v.beginLine c 0) := by
  have granted := (beginLine_two two v).2.2
  rw [h.slot, h.settles, h.transfer, h.ingest] at granted
  exact granted

end SettledFrom

/-! #### VB above 2: the frame memory is not asked -/

theorem blank_started (settled : s.loader.settled = some c) (blank : 2 < c.vb) :
    ∃ v, SettledFrom s v (cutsFrame c timer.last timer.next) ∧
      SameMemorySide v.presentationStep (started c timer order s) := by
  obtain ⟨v, w, scan, transfer, ingest, -, two⟩ := exists_settled (timer := timer) (order := order) settled
  have start : SettledFrom s v (cutsFrame c timer.last timer.next) := ⟨scan, transfer, ingest⟩
  have same (a : State) : a.beginLine c 0 = a := beginLine_of_blank (by omega)
  rcases two with ⟨-, to_w, to_t, -⟩ | ⟨-, to_w, -, to_t, -⟩
  · rw [same] at to_t
    exact ⟨v, start, to_w.1.trans to_t.1, to_w.2.1.trans to_t.2.1, to_w.2.2.trans to_t.2.2⟩
  · rw [same] at to_w
    exact ⟨w, start.of_same to_w, to_t⟩

theorem blank_memory (h : SettledFrom b v cut) (same : SameMemorySide v.presentationStep t) :
    t.scan.records = settledRecords b.scan.records ∧
      ((b.transfer = none → b.ingest.queue = []) →
        t.transfer = b.transfer ∧ t.ingest.queue = b.ingest.queue) := by
  have all : ∀ x ∈ settledRecords b.scan.records, x.inProgress = true := fun x hx => (settledRecords_all hx).1
  rcases presentationStep_cases v with ⟨-, -, -, frame⟩ | ⟨f, i, m, step, -⟩
  · have unchanged : SameMemorySide v v.presentationStep := .of_frame frame (by decide) (by decide) (by decide)
    have after := (h.of_same unchanged).of_same same
    exact ⟨after.settles, fun _ => ⟨after.transfer, congrArg Assembler.queue after.ingest⟩⟩
  · rw [step] at same
    have granted := (h.presents f i m).of_same same
    refine ⟨?_, fun quiet => ?_⟩
    · cases is : b.transfer with
      | some x => exact (granted.1 (is ▸ nofun)).2.1
      | none => exact (granted.2.2 is (.inr all)).1
    · obtain ⟨kept, -, left⟩ := granted.nothing quiet fun _ => .inr all
      exact ⟨kept, left⟩

/-! #### VB of 2: active line 0 is asked for -/

/-- What is asked of the frame memory at a frame start that requests line 0, by whether the shown frame changes. -/
def AsksFirstLine (order : FrameOrder) (b t : State) : Prop :=
  let settled := settledRecords b.scan.records
  let presents : Prop := t.presentation.shown ≠ b.presentation.shown
  (¬ presents → Granted b.scan.slot b.transfer (if b.scan.slot = none then settled else settled ++ [firstAsked])
    b.ingest.queue t) ∧
  ∀ i, presents → t.scan.slot = some i →
    (FramePart.before order.taken .present .firstLine = true ∨ b.transfer ≠ none ∨ b.scan.slot = none →
      Granted (some i) b.transfer (settled ++ [firstAsked]) b.ingest.queue t) ∧
    ∀ j, FramePart.before order.taken .firstLine .present = true → b.transfer = none → b.scan.slot = some j →
      t.transfer = some (.fetch j 0) ∧ t.scan.records = settled ++ [⟨0, 0, true, true⟩, firstAsked] ∧
        t.ingest.queue = b.ingest.queue

theorem asksFirstLine_of_presentsFirst (two : c.vb = 2) (h : SettledFrom b v cut)
    (shown : v.presentation.shown = b.presentation.shown) (quiet : b.transfer = none → b.ingest.queue = [])
    (taken : PresentsFirst c order v w t) : AsksFirstLine order b t := by
  obtain ⟨before, to_w, to_t, after⟩ := taken
  rcases presentationStep_cases v with ⟨same, -, -, frame⟩ | ⟨f, i, m, step, other⟩
  · have unchanged : SameMemorySide v v.presentationStep := .of_frame frame (by decide) (by decide) (by decide)
    refine ⟨fun _ => (((h.of_same unchanged).of_same to_w).line two).of_same to_t, fun i presents => absurd ?_ presents⟩
    exact after.trans (same.trans shown)
  · rw [step] at to_w after
    have presents : t.presentation.shown ≠ b.presentation.shown := by
      rw [after, shown_presents, ← shown]
      exact other.symm
    obtain ⟨transfer, records, left⟩ := ((h.presents f i m).of_same to_w).nothing quiet
      fun _ => .inr fun x hx => (settledRecords_all hx).1
    have scan_slot : w.scan.slot = some i := (congrArg ScanOut.slot to_w.1).symm.trans (by rw [(presents_spec f i m v).2.2.1])
    have granted := ((beginLine_two two w).2.2).of_same to_t
    rw [scan_slot, records, transfer, left, if_neg nofun] at granted
    have kept : t.scan.slot = some i := (congrArg ScanOut.slot to_t.1).symm.trans ((slot_beginLine 0).trans scan_slot)
    refine ⟨fun repeats => absurd presents repeats, fun i' _ is => ⟨fun _ => ?_, fun j first => ?_⟩⟩
    · cases kept.symm.trans is
      exact granted
    · exact absurd first (Bool.eq_false_iff.1 before)

theorem asksFirstLine_of_lineFirst (two : c.vb = 2) (h : SettledFrom b v cut)
    (shown : v.presentation.shown = b.presentation.shown) (quiet : b.transfer = none → b.ingest.queue = [])
    (taken : LineFirst c order v w t) : AsksFirstLine order b t := by
  obtain ⟨before, to_w, w_shown, to_t, after⟩ := taken
  have asked := (h.line two).of_same to_w
  have stands := (ScanStands.beginLine two h.stands).of_same to_w
  have even : w.scan.even = ⟨some 0, false, []⟩ := by rw [stands]
  have odd : w.scan.odd = .released := by rw [stands, settle_eq]
  rcases presentationStep_cases w with ⟨same, -, -, frame⟩ | ⟨f, i, m, step, other⟩
  · have unchanged : SameMemorySide w w.presentationStep := .of_frame frame (by decide) (by decide) (by decide)
    refine ⟨fun _ => (asked.of_same unchanged).of_same to_t, fun i presents => absurd ?_ presents⟩
    exact after.trans (same.trans (w_shown.trans shown))
  · rw [step] at to_t after
    have presents : t.presentation.shown ≠ b.presentation.shown := by
      rw [after, shown_presents, ← shown, ← w_shown]
      exact other.symm
    have granted := ((presents_spec f i m w).2.2.2.2).of_same to_t
    rw [odd, askedAgain_released, List.append_nil] at granted
    have kept : t.scan.slot = some i := (congrArg ScanOut.slot to_t.1).symm.trans (by rw [(presents_spec f i m w).2.2.1])
    refine ⟨fun repeats => absurd presents repeats, fun i' _ is => ⟨fun clear => ?_, fun j _ idle first => ?_⟩⟩
    · cases kept.symm.trans is
      have clear := clear.resolve_left (Bool.eq_false_iff.1 before)
      obtain ⟨transfer, records, left⟩ := asked.nothing quiet fun idle => .inl (clear.resolve_left fun k => k idle)
      rw [transfer, records, left] at granted
      by_cases no_slot : b.scan.slot = none
      · rw [if_pos no_slot, staled_settledRecords] at granted
        have again := askedAgain_settled (records := b.scan.records) (more := []) (b := 0) (x := w.scan.even)
          (congrArg LineBuffer.line even) nofun
        rw [List.append_nil] at again
        rw [again] at granted
        exact granted
      · rw [if_neg no_slot, staled_append_asked, askedAgain_of_waiting (congrArg LineBuffer.line even),
          List.append_nil] at granted
        exact granted
    · have all : ∀ x ∈ settledRecords b.scan.records, x.inProgress = true := fun x hx => (settledRecords_all hx).1
      rw [first, if_neg nofun] at asked
      obtain ⟨transfer, records, left⟩ := asked.2.1 _ [] firstAsked j idle rfl all rfl rfl
      rw [transfer, records, left, List.map_append, staled_settledRecords] at granted
      have again := askedAgain_settled (records := b.scan.records) (more := [⟨0, 0, true, true⟩]) (b := 0)
        (x := w.scan.even) (congrArg LineBuffer.line even) (by simp)
      obtain ⟨fetches, stale, empty⟩ := granted.1 nofun
      refine ⟨fetches, stale.trans ?_, empty⟩
      refine (congrArg (_ ++ ·) again).trans ?_
      exact List.append_assoc _ _ _

end Sys2Proof

/-! ### RING OUT through a frame start (R46, R115, R118, R125) -/

namespace Sys2Proof

open Sys2Proof.Machine

variable {s t u : State} {c : Settings} {timer : FrameTimer} {order : FrameOrder} {cut : Bool} {d : Tick}
  {x : FramePart} {l : List FramePart}

/-! #### Parts at a busy RING OUT -/

theorem chooseOut_of_busy (busy : s.ringOut.sending ≠ none) : s.chooseOut = s := by
  cases sending : s.ringOut.sending with
  | none => exact absurd sending busy
  | some x => exact chooseOut_of_sending sending

/-- A BEAT in its place (R115). -/
def beatPlaced (b : Beat) (r : RingTransmitter) : RingTransmitter :=
  { r with beat := some b, beatReplaced := if r.beat.isSome then bump r.beatReplaced else r.beatReplaced }

/-- A STANDING in its place (R115). -/
def standingPlaced (r : RingTransmitter) : RingTransmitter :=
  { r with standing := true, standingReplaced := if r.standing then bump r.standingReplaced else r.standingReplaced }

theorem offerBeat_eq (b : Beat) : s.offerBeat b = (s.setRingOut (beatPlaced b s.ringOut)).chooseOut := rfl

theorem standingOffer_of_running (running : s.loader.station = .running) :
    s.standingOffer = (s.setRingOut (standingPlaced s.ringOut)).chooseOut := by
  rw [State.standingOffer, running]
  rfl

theorem standingOffer_of_other (other : s.loader.station ≠ .running) : s.standingOffer = s := by
  unfold State.standingOffer
  cases station : s.loader.station with
  | running => exact absurd station other
  | _ => rfl

/-- The Presentation Controller and station time at a composition, the BEAT still to be placed. -/
def beforeBeat (c : Settings) (d : Tick) (s : State) : State :=
  (s.setPresentation (s.presentation.composed s.timing.epoch (s.decisionOf c))).passTicks d

theorem composition_of_origin (origin : s.role.role = .origin) :
    s.composition c d = (beforeBeat c d s).offerBeat (s.composed c) := if_pos origin

theorem frame_beforeBeat : Frame [.now, .presentation] s (beforeBeat c d s) :=
  ((Frame.setPresentation s _).mono (by decide)).trans ((Frame.passTicks _ d).mono (by decide))

theorem ringOut_beforeBeat : (beforeBeat c d s).ringOut = s.ringOut := (frame_beforeBeat.2 .ringOut (by decide)).symm

/-- A busy RING OUT takes the BEAT into its place and goes on. -/
theorem composition_of_busy (origin : s.role.role = .origin) (busy : s.ringOut.sending ≠ none) :
    s.composition c d = (beforeBeat c d s).setRingOut (beatPlaced (s.composed c) s.ringOut) := by
  rw [composition_of_origin origin, offerBeat_eq, ringOut_beforeBeat]
  exact chooseOut_of_busy busy

theorem standingOffer_of_busy (running : s.loader.station = .running) (busy : s.ringOut.sending ≠ none) :
    s.standingOffer = s.setRingOut (standingPlaced s.ringOut) := by
  rw [standingOffer_of_running running]
  exact chooseOut_of_busy busy

/-! #### Expiry (R125) -/

/-- How many outstanding entries are 2 or more frame starts old. -/
def oldEntries (s : State) : Nat := s.ringOut.outstanding.countP (Outstanding.old s.timing.frameCount)

theorem expireOld_of_none (young : oldEntries s = 0) : s.expireOld = s := if_pos young

theorem expireOld_of_some (old : 0 < oldEntries s) : s.expireOld =
    { s with
      ringOut :=
        { s.ringOut with
          outstanding := s.ringOut.outstanding.filter (fun o => !o.old s.timing.frameCount),
          lostOwn := bumpBy (oldEntries s) s.ringOut.lostOwn, ring := .broken },
      notices := if s.ringOut.ring = .broken then s.notices else s.notices ||| 0x0008#16 } := by
  have expires : s.expireOld = _ := if_neg old.ne'
  rw [expires, setRing_eq]
  rfl

/-- An expiry reaches the outstanding list, LOST_OWN and the ring state alone. -/
theorem ringOut_expireOld : s.expireOld.ringOut =
    { s.ringOut with
      outstanding := s.expireOld.ringOut.outstanding, lostOwn := s.expireOld.ringOut.lostOwn,
      ring := s.expireOld.ringOut.ring } := by
  rcases Nat.eq_zero_or_pos (oldEntries s) with none_old | some_old
  · rw [expireOld_of_none none_old]
  · rw [expireOld_of_some some_old]

/-! #### A busy RING OUT through all parts -/

/-- RING OUT is sending `y`. -/
def Sends (y : Sending) (s : State) : Prop := s.ringOut.sending = some y

theorem Sends.busy {y : Sending} (h : Sends y s) : s.ringOut.sending ≠ none := by
  unfold Sends at h
  rw [h]
  exact nofun

theorem composition_cases (s : State) : (s.role.role ≠ .origin ∧ s.composition c d = s) ∨
    (s.role.role = .origin ∧ s.composition c d = (beforeBeat c d s).offerBeat (s.composed c)) := by
  by_cases origin : s.role.role = .origin
  · exact .inr ⟨origin, composition_of_origin origin⟩
  · exact .inl ⟨origin, composition_of_not_origin origin⟩

/-- The places and the transmission: what an expiry does not reach. -/
theorem ringOut_framePart_of_busy {y : Sending} (h : Sends y s) : (s.framePart c cut d x).ringOut =
    match x with
    | .compose => if s.role.role = .origin then beatPlaced (s.composed c) s.ringOut else s.ringOut
    | .offer => if s.loader.station = .running then standingPlaced s.ringOut else s.ringOut
    | .expire => s.expireOld.ringOut
    | .role | .settle | .present | .firstLine | .holds => s.ringOut := by
  cases x with
  | compose =>
    by_cases origin : s.role.role = .origin
    · exact (congrArg State.ringOut (composition_of_busy origin h.busy)).trans (if_pos origin).symm
    · exact (congrArg State.ringOut (composition_of_not_origin origin)).trans (if_neg origin).symm
  | offer =>
    by_cases running : s.loader.station = .running
    · exact (congrArg State.ringOut (standingOffer_of_busy running h.busy)).trans (if_pos running).symm
    · exact (congrArg State.ringOut (standingOffer_of_other running)).trans (if_neg running).symm
  | expire => rfl
  | role | settle | present | firstLine | holds => exact ((frame_framePart cut d _).2 .ringOut (by decide)).symm

theorem Sends.framePart {y : Sending} (h : Sends y s) : Sends y (s.framePart c cut d x) := by
  unfold Sends
  rw [ringOut_framePart_of_busy h]
  cases x with
  | compose => exact (apply_ite RingTransmitter.sending _ _ _).trans ((ite_self _).trans h)
  | offer => exact (apply_ite RingTransmitter.sending _ _ _).trans ((ite_self _).trans h)
  | expire =>
    have same : s.expireOld.ringOut.sending = s.ringOut.sending := by rw [ringOut_expireOld]
    exact same.trans h
  | role | settle | present | firstLine | holds => exact h

theorem Sends.startRun {y : Sending} (h : Sends y s) : Sends y (startRun c cut d l s) := by
  induction l generalizing s with
  | nil => exact h
  | cons x l ih => exact ih h.framePart

/-- What the parts of a list keep at a busy RING OUT, the list keeps. -/
theorem startRun_field_of_busy {α : Type} {f : State → α} {y : Sending}
    (keeps : ∀ x ∈ l, ∀ s : State, s.loader.settled = some c → Sends y s → f (s.framePart c cut d x) = f s)
    (settled : s.loader.settled = some c) (h : Sends y s) : f (startRun c cut d l s) = f s :=
  (frameParts_keep (P := fun t => Sends y t ∧ f t = f s)
    (fun x hx t ht k => ⟨k.1.framePart, (keeps x hx t ht k.1).trans k.2⟩) settled ⟨h, rfl⟩).2

/-- The STANDING place and its count. -/
def standingPlace (s : State) : Bool × Counter := (s.ringOut.standing, s.ringOut.standingReplaced)

theorem standingPlace_framePart {y : Sending} (h : Sends y s) (other : x ≠ .offer) :
    standingPlace (s.framePart c cut d x) = standingPlace s := by
  unfold standingPlace
  rw [ringOut_framePart_of_busy h]
  cases x with
  | compose => dsimp only; split <;> rfl
  | offer => exact absurd rfl other
  | expire => dsimp only; rw [ringOut_expireOld]
  | role | settle | present | firstLine | holds => rfl

/-- Behind a busy RING OUT a RUNNING station offers its STANDING into the place (R46). -/
theorem standingPlace_started {y : Sending} (settled : s.loader.settled = some c) (h : Sends y s) :
    standingPlace (started c timer order s) =
      if s.loader.station = .running then
        (true, if s.ringOut.standing = true then bump s.ringOut.standingReplaced else s.ringOut.standingReplaced)
      else standingPlace s := by
  obtain ⟨front, rest, split⟩ := exists_splitAt order .offer
  let cut := cutsFrame c timer.last timer.next
  let base := s.timingFrameStart c timer.next
  let v := startRun c cut order.composeTicks front base
  have begun : Frame [.now, .timing, .notices] s base := .timingFrameStart s c timer.next
  have ring : base.ringOut = s.ringOut := (begun.2 .ringOut (by decide)).symm
  have base_sends : Sends y base := (congrArg RingTransmitter.sending ring).trans h
  have v_sends : Sends y v := base_sends.startRun
  have apart {l : List FramePart} (absent : FramePart.offer ∉ l) {x : FramePart} (hx : x ∈ l) : x ≠ .offer :=
    fun k => absent (k ▸ hx)
  have v_settled : v.loader.settled = some c := settled_startRun (started_settled settled _)
  have v_place : standingPlace v = standingPlace s :=
    (startRun_field_of_busy (fun x hx _ _ k => standingPlace_framePart k (apart split.not_front hx))
      (started_settled settled _) base_sends).trans (congrArg (fun r : RingTransmitter => (r.standing, r.standingReplaced)) ring)
  have station : v.loader.station = s.loader.station := by
    have loader : s.loader = v.loader := (begun.2 .loader (by decide)).trans
      (same_startRun (y := .loader) fun x _ => by cases x <;> decide)
    rw [loader]
  have after : standingPlace (started c timer order s) =
      standingPlace (v.framePart c cut order.composeTicks .offer) := by
    rw [started_split split]
    exact startRun_field_of_busy (fun x hx _ _ k => standingPlace_framePart k (apart split.not_rest hx))
      ((congrArg Loader.settled (loader_framePart cut order.composeTicks _)).trans v_settled) v_sends.framePart
  obtain ⟨standing, replaced⟩ := Prod.mk.inj v_place
  rw [after, standingPlace, ringOut_framePart_of_busy v_sends, ← station]
  dsimp only
  split
  · rw [standingPlaced, standing, replaced]
  · exact v_place

end Sys2Proof

/-! ### A frame start, block by block (R37, R59, R77, R162 to R169) -/

namespace Sys2Proof

open Sys2Proof.Machine

variable {s t u : State} {c : Settings} {timer : FrameTimer} {order : FrameOrder} {cut : Bool} {d : Tick}
  {x : FramePart} {l : List FramePart}

theorem beatsMissed_roleFrameStart (s : State) (c : Settings) :
    (s.roleFrameStart c).role.beatsMissed = min 255 (s.role.beatsMissed + 1) := by
  cases role : s.role.role with
  | origin => rw [roleFrameStart_of_kept (.inl role)]; rfl
  | standby => rw [roleFrameStart_of_kept (.inr role)]; rfl
  | follower =>
    by_cases may : MayClaim c s
    · rw [roleFrameStart_of_claim may (.inl role), claim_eq]; rfl
    · rw [roleFrameStart_of_follower may role]; rfl
  | listening =>
    by_cases four : 3 ≤ s.role.listening
    · by_cases may : MayClaim c s
      · rw [roleFrameStart_of_claim may (.inr ⟨role, four⟩), claim_eq]; rfl
      · rw [roleFrameStart_of_end may role four]; rfl
    · rw [roleFrameStart_of_listening role (Nat.not_le.1 four)]; rfl

/-- Exactly one of PRESENTED and REPEATED counts (R37). -/
theorem presentationStep_counts (s : State) : let p := s.presentation
    let q := s.presentationStep.presentation
    (q.presented = bump p.presented ∧ q.repeated = p.repeated) ∨
      (q.presented = p.presented ∧ q.repeated = bump p.repeated ∧ q.shown = p.shown) := by
  rcases presentationStep_cases s with ⟨shown, presented, repeated, -⟩ | ⟨f, i, m, step, -⟩
  · exact .inr ⟨presented, repeated, shown⟩
  · rw [step, (presents_spec f i m s).1]
    exact .inl ⟨rfl, rfl⟩

theorem presentation_started (settled : s.loader.settled = some c) : let p := s.presentation
    let q := (started c timer order s).presentation
    (q.presented = bump p.presented ∧ q.repeated = p.repeated) ∨
      (q.presented = p.presented ∧ q.repeated = bump p.repeated ∧ q.shown = p.shown) := by
  intro p q
  have kept := eq_of_stepPart (started_present (timer := timer) (order := order) settled).1
  have counts := presentationStep_counts { s with timing := { s.timing with epoch := s.timing.epoch + 1 } }
  rw [show q = _ from kept]
  exact counts

/-- Of the Frame Assembler, a frame start reaches the write queue alone. -/
theorem ingest_presentationStep : s.presentationStep.ingest = { s.ingest with queue := s.presentationStep.ingest.queue } := by
  rcases presentationStep_cases s with ⟨-, -, -, frame⟩ | ⟨f, i, m, step, -⟩
  · rw [← frame.2 .ingest (by decide)]
  · rw [step]
    exact (presents_spec f i m s).2.2.2.1

/-- The Frame Assembler but for its write queue. -/
def unqueued (s : State) : Assembler := { s.ingest with queue := [] }

theorem unqueued_framePart : unqueued (s.framePart c cut d x) = unqueued s := by
  have apart {y : FramePart} (h : Part.ingest ∉ partChanges y) : unqueued (s.framePart c cut d y) = unqueued s :=
    congrArg (fun u : Assembler => { u with queue := [] }) ((frame_framePart cut d y).2 .ingest h).symm
  cases x with
  | present => exact congrArg (fun u : Assembler => { u with queue := [] }) ingest_presentationStep
  | firstLine => exact congrArg (fun u : Assembler => { u with queue := [] }) (ingest_beginLine (f := 0))
  | role | settle | compose | holds | offer | expire => exact apart (by decide)

theorem frame_started : Frame frameStartParts s (started c timer order s) :=
  ((Frame.timingFrameStart s c timer.next).mono (by decide)).trans (Frame.frameParts _ _ _ _ _)

theorem ingest_started (settled : s.loader.settled = some c) :
    (started c timer order s).ingest = { s.ingest with queue := (started c timer order s).ingest.queue } := by
  have begun : Frame [.now, .timing, .notices] s _ := .timingFrameStart s c timer.next
  have kept : unqueued (started c timer order s) = unqueued s :=
    (startRun_field (f := unqueued) (fun _ _ _ _ => unqueued_framePart) (started_settled settled _)).trans
      (congrArg (fun u : Assembler => { u with queue := [] }) (begun.2 .ingest (by decide)).symm)
  exact congrArg (fun u : Assembler => { u with queue := (started c timer order s).ingest.queue }) kept

theorem startFields_started (settled : s.loader.settled = some c) :
    StartFields (s.timing.startFrame c.period timer.next) (started c timer order s) :=
  startFields_startRun startFields_timingFrameStart (started_settled settled _)

/-! #### The Scan-Out Unit -/

theorem scanStands_started (settled : s.loader.settled = some c) :
    (2 < c.vb → ScanStands (s.scan.settle (cutsFrame c timer.last timer.next)) .released (started c timer order s)) ∧
      (c.vb = 2 → ScanStands (s.scan.settle (cutsFrame c timer.last timer.next)) ⟨some 0, false, []⟩
        (started c timer order s)) := by
  have odd : (s.scan.settle (cutsFrame c timer.last timer.next)).odd = .released := by rw [settle_eq]
  refine ⟨fun blank => ?_, fun two => ?_⟩
  · obtain ⟨v, from_s, same⟩ := blank_started (timer := timer) (order := order) settled blank
    exact (from_s.stands.presentationStep odd rfl).of_same same
  · obtain ⟨v, w, scan, transfer, ingest, -, orders⟩ := exists_settled (timer := timer) (order := order) settled
    have from_s : SettledFrom s v (cutsFrame c timer.last timer.next) := ⟨scan, transfer, ingest⟩
    rcases orders with ⟨-, to_w, to_t, -⟩ | ⟨-, to_w, -, to_t, -⟩
    · exact (((from_s.stands.presentationStep odd rfl).of_same to_w).beginLine two).of_same to_t
    · exact (((from_s.stands.beginLine two).of_same to_w).presentationStep odd rfl).of_same to_t

/-- What stands at the Scan-Out Unit, item by item. -/
theorem ScanStands.fields {even : LineBuffer}
    (h : ScanStands (s.scan.settle (cutsFrame c timer.last timer.next)) even t) :
    t.scan.output = .background ∧ t.scan.underrun = s.scan.underrun ∧ t.scan.fetches = s.scan.fetches ∧
      t.scan.staleFetch = s.scan.staleFetch ∧
      t.scan.cutFrames =
        (if (timer.next - timer.last).toNat < c.lineTicks * (c.vb + c.h) then bump s.scan.cutFrames
        else s.scan.cutFrames) ∧ t.scan.odd = .released := by
  rw [h, settle_eq]
  exact ⟨rfl, rfl, rfl, rfl, if_congr decide_eq_true_iff rfl rfl, rfl⟩

theorem asksFirstLine_started (settled : s.loader.settled = some c) (two : c.vb = 2)
    (quiet : s.transfer = none → s.ingest.queue = []) : AsksFirstLine order s (started c timer order s) := by
  obtain ⟨v, w, scan, transfer, ingest, shown, orders⟩ := exists_settled (timer := timer) (order := order) settled
  have from_s : SettledFrom s v (cutsFrame c timer.last timer.next) := ⟨scan, transfer, ingest⟩
  exact orders.elim (asksFirstLine_of_presentsFirst two from_s shown quiet)
    (asksFirstLine_of_lineFirst two from_s shown quiet)

/-- Settles O22: each block by the one part, or the few, that reach it. -/
theorem frameStartAdvances : Obligations.FrameStartAdvances := by
  intro e order c timer s runs b settled asked
  have ⟨_, is_settled, _, _⟩ := runs
  refine ⟨started c timer order b, exec_frameStart_of_runs runs, ?_⟩
  intro presents
  obtain ⟨timer_next, epoch, count, missed⟩ := startFields_started (timer := timer) (order := order) is_settled
  obtain ⟨u, role, -, -, after_role, -, -⟩ := exists_atRole (timer := timer) (order := order) is_settled
  obtain ⟨above, equal⟩ := scanStands_started (timer := timer) (order := order) is_settled
  have ingest := ingest_started (timer := timer) (order := order) is_settled
  refine ⟨timer_next, epoch, count, missed, ?_, presentation_started is_settled, fun least => ?_, fun busy => ?_, ingest,
    frame_started⟩
  · rw [after_role, beatsMissed_roleFrameStart, role]
  · obtain ⟨even, stands⟩ : ∃ even, ScanStands (b.scan.settle (cutsFrame c timer.last timer.next)) even
        (started c timer order b) :=
      (Nat.lt_or_eq_of_le least).elim (fun k => ⟨_, above k⟩) fun k => ⟨_, equal k.symm⟩
    obtain ⟨output, underrun, fetches, stale, cut, odd⟩ := stands.fields
    refine ⟨output, underrun, fetches, stale, cut, odd, fun blank => ⟨by rw [above blank]; rfl, ?_⟩,
      fun two => by rw [equal two], fun quiet => ⟨fun blank => ?_, fun two => (asksFirstLine_started is_settled two quiet).1,
        fun i two => ?_⟩⟩
    · obtain ⟨v, from_b, same⟩ := blank_started (timer := timer) (order := order) is_settled blank
      exact (blank_memory from_b same).1
    · obtain ⟨v, from_b, same⟩ := blank_started (timer := timer) (order := order) is_settled blank
      obtain ⟨transfer, queue⟩ := (blank_memory from_b same).2 quiet
      rw [queue] at ingest
      exact ⟨transfer, ingest⟩
    · intro shows slot
      obtain ⟨granted, early⟩ := (asksFirstLine_started (timer := timer) (order := order) is_settled two quiet).2 i shows slot
      refine ⟨granted, fun j first idle held => ?_⟩
      obtain ⟨transfer, records, queue⟩ := early j first idle held
      rw [queue] at ingest
      exact ⟨transfer, records, ingest⟩
  · obtain ⟨y, sends⟩ := Option.ne_none_iff_exists'.1 busy
    have place := standingPlace_started (timer := timer) (order := order) is_settled sends
    have station : b.loader.station = s.loader.station := elapse_station
    rw [station] at place
    refine ⟨fun running => ?_, fun other => ?_⟩
    · rw [if_pos running] at place
      exact Prod.mk.inj place
    · rw [if_neg other] at place
      exact Prod.mk.inj place

end Sys2Proof

/-! ### What each part of a frame start meets when its turn comes -/

namespace Sys2Proof

open Sys2Proof.Machine

variable {s t u v : State} {c : Settings} {timer : FrameTimer} {order : FrameOrder} {cut : Bool} {d : Tick}
  {x q : FramePart} {l front rest : List FramePart} {y : Sending} {α : Type} {f : State → α} {g : α → α}
  {may : FramePart → State → Prop}

/-! #### Fields that one part changes -/

/-- What `may` says of each part of a list holds when the part is taken. -/
def Reached (may : FramePart → State → Prop) (c : Settings) (cut : Bool) (d : Tick) (l : List FramePart) (s : State) : Prop :=
  ∀ l1 x l2, l = l1 ++ x :: l2 → may x (startRun c cut d l1 s)

theorem Reached.head (h : Reached may c cut d (x :: l) s) : may x s := h [] x l rfl

theorem Reached.tail (h : Reached may c cut d (x :: l) s) : Reached may c cut d l (s.framePart c cut d x) :=
  fun l1 z l2 e => h (x :: l1) z l2 (congrArg (x :: ·) e)

theorem startRun_still (keeps : ∀ x u, may x u → f (u.framePart c cut d x) = f u) (reached : Reached may c cut d l s) :
    f (startRun c cut d l s) = f s := by
  induction l generalizing s with
  | nil => rfl
  | cons x l ih => exact (ih reached.tail).trans (keeps x s reached.head)

/-- A field that the part `q` alone changes. -/
theorem startRun_once (keeps : ∀ x u, x ≠ q → may x u → f (u.framePart c cut d x) = f u)
    (there : ∀ u, may q u → f (u.framePart c cut d q) = g (f u)) (nodup : l.Nodup) (reached : Reached may c cut d l s) :
    f (startRun c cut d l s) = if q ∈ l then g (f s) else f s := by
  induction l generalizing s with
  | nil => rfl
  | cons x l ih =>
    obtain ⟨absent, nodup⟩ := List.nodup_cons.1 nodup
    have rest := ih nodup reached.tail
    by_cases is : x = q
    · subst is
      rw [if_neg absent, there s reached.head] at rest
      rw [if_pos List.mem_cons_self]
      exact rest
    · rw [keeps x s is reached.head] at rest
      refine rest.trans (if_congr ?_ rfl rfl)
      exact ⟨List.mem_cons_of_mem _, fun k => (List.mem_cons.1 k).resolve_left (Ne.symm is)⟩

theorem Reached.of_sends (h : Sends y s) : Reached (fun _ u => Sends y u) c cut d l s := fun _ _ _ _ => h.startRun

/-- A part that finds RING OUT without work for it: nothing is composed, and no STANDING is offered. -/
def QuietPart (x : FramePart) (u : State) : Prop :=
  (x = .compose → u.role.role ≠ .origin) ∧ (x = .offer → u.loader.station ≠ .running)

theorem Reached.quiet (composes : .compose ∈ l → (startRun c cut d l s).role.role ≠ .origin)
    (offers : .offer ∈ l → s.loader.station ≠ .running) : Reached QuietPart c cut d l s := by
  intro l1 x l2 e
  refine ⟨fun is => ?_, fun is => ?_⟩
  · subst is
    subst e
    have other := composes (by simp)
    rw [startRun, List.foldl_append] at other
    exact fun k => other (origin_startRun k)
  · subst is
    subst e
    have loader : s.loader = (startRun c cut d l1 s).loader :=
      same_startRun (y := .loader) fun x _ => by cases x <;> decide
    exact loader ▸ offers (by simp)

/-! #### The roster and RING OUT, part by part -/

theorem framePart_of_quiet (h : QuietPart x s) : (s.framePart c cut d x).ringOut =
      (if x = .expire then s.expireOld.ringOut else s.ringOut) ∧
    (s.framePart c cut d x).roster = if x = .holds then s.roster.countHolds else s.roster := by
  cases x with
  | compose =>
    have same : s.framePart c cut d .compose = s := composition_of_not_origin (h.1 rfl)
    rw [same]
    exact ⟨rfl, rfl⟩
  | offer =>
    have same : s.framePart c cut d .offer = s := standingOffer_of_other (h.2 rfl)
    rw [same]
    exact ⟨rfl, rfl⟩
  | expire => exact ⟨rfl, ((frame_framePart cut d _).2 .roster (by decide)).symm⟩
  | holds => exact ⟨rfl, rfl⟩
  | role | settle | present | firstLine =>
    exact ⟨((frame_framePart cut d _).2 .ringOut (by decide)).symm, ((frame_framePart cut d _).2 .roster (by decide)).symm⟩

theorem roster_framePart_of_busy (h : Sends y s) : (s.framePart c cut d x).roster =
    if x = .holds then s.roster.countHolds else s.roster := by
  cases x with
  | compose =>
    by_cases origin : s.role.role = .origin
    · exact (congrArg State.roster (composition_of_busy origin h.busy)).trans (frame_beforeBeat.2 .roster (by decide)).symm
    · exact congrArg State.roster (composition_of_not_origin origin)
  | offer =>
    by_cases running : s.loader.station = .running
    · exact (congrArg State.roster (standingOffer_of_busy running h.busy) :)
    · exact congrArg State.roster (standingOffer_of_other running)
  | holds => rfl
  | role | settle | present | firstLine | expire => exact ((frame_framePart cut d _).2 .roster (by decide)).symm

/-- The roster but for the fault holds. -/
def rosterBody (s : State) : RosterUnit := { s.roster with conflictHold := 0, mismatchHold := 0 }

theorem rosterBody_of_roster {p : Prop} [Decidable p] (h : t.roster = if p then s.roster.countHolds else s.roster) :
    rosterBody t = rosterBody s := by
  unfold rosterBody
  rw [h]
  split <;> rfl

/-- RING OUT but for what an expiry reaches. -/
def placesBody (s : State) : RingTransmitter := { s.ringOut with outstanding := [], lostOwn := 0, ring := .intact }

theorem placesBody_of_quiet (h : QuietPart x s) : placesBody (s.framePart c cut d x) = placesBody s := by
  unfold placesBody
  rw [framePart_of_quiet h |>.1]
  split
  · rw [ringOut_expireOld]
  · rfl

/-- What RING OUT sends and the BEAT place: what a busy RING OUT keeps through every part but the composition. -/
def sendSide (s : State) : RingTransmitter :=
  { placesBody s with standing := false, standingReplaced := 0 }

theorem sendSide_of_busy (h : Sends y s) (other : x ≠ .compose) : sendSide (s.framePart c cut d x) = sendSide s := by
  unfold sendSide placesBody
  rw [ringOut_framePart_of_busy h]
  cases x with
  | compose => exact absurd rfl other
  | offer => dsimp only; split <;> rfl
  | expire => dsimp only; rw [ringOut_expireOld]
  | role | settle | present | firstLine | holds => rfl

end Sys2Proof

/-! ### The decision and its BEAT (R22 to R28, R39) -/

namespace Sys2Proof

open Sys2Proof.Machine

variable {s t u v : State} {c : Settings} {timer : FrameTimer} {order : FrameOrder} {cut : Bool} {d : Tick} {f : FrameNo}

/-! #### The decision -/

/-- An entry that takes part in a decision (R22). -/
def TakesPart (x : Entry) : Prop := x.member = true ∧ (x.said.lock = .locked ∨ x.said.lock = .holdover)

theorem participates_iff (x : Entry) : x.participates = true ↔ TakesPart x := by
  simp [Entry.participates, TakesPart]

theorem mem_participants {x : Entry} : x ∈ s.participants ↔ x ∈ s.roster.entries ∧ TakesPart x := by
  rw [State.participants, List.mem_filter, participates_iff]

/-- A frame that the origin or a participant shows (R23). -/
def Shows (s : State) (f : FrameNo) : Prop :=
  s.presentation.shown = some f ∨ ∃ x ∈ s.roster.entries, TakesPart x ∧ x.said.shown = some f

theorem mem_shownFrames : f ∈ s.shownFrames ↔ Shows s f := by
  simp only [State.shownFrames, List.mem_append, Option.mem_toList, List.mem_filterMap, mem_participants, and_assoc, Shows]

/-- A shown frame that is later than every other one. -/
def Latest (s : State) (f : FrameNo) : Prop := Shows s f ∧ ∀ g, Shows s g → g = f ∨ laterThan f g = true

theorem latest_iff : Latest s f ↔ f ∈ s.shownFrames ∧ (s.shownFrames.all fun g => f == g || laterThan f g) = true := by
  simp only [Latest, ← mem_shownFrames, List.all_eq_true, Bool.or_eq_true, beq_iff_eq]
  exact and_congr_right fun _ => forall₂_congr fun g _ => or_congr_left eq_comm

theorem Latest.unique {g : FrameNo} (h : Latest s f) (k : Latest s g) : f = g := by
  rcases h.2 g k.1 with same | later
  · exact same.symm
  · exact (k.2 f h.1).resolve_right (by rw [laterThan_asymm later]; exact nofun)

/-- What a search finds passes its test. -/
theorem of_find {list : List FrameNo} {test : FrameNo → Bool} {g : FrameNo} (found : list.find? test = some g) :
    test g = true := List.find?_some found

theorem reference_of_latest (latest : Latest s f) : s.reference = some f := by
  unfold State.reference latestOf
  cases found : s.shownFrames.find? fun f => s.shownFrames.all fun g => f == g || laterThan f g with
  | none => exact absurd (latest_iff.1 latest).2 (List.find?_eq_none.1 found f (latest_iff.1 latest).1)
  | some g =>
    have other : Latest s g := latest_iff.2 ⟨List.mem_of_find?_eq_some found, of_find found⟩
    exact congrArg some (other.unique latest)

theorem reference_of_none (nowhere : ∀ f, ¬ Latest s f) : s.reference = s.presentation.shown := by
  unfold State.reference latestOf
  cases found : s.shownFrames.find? fun f => s.shownFrames.all fun g => f == g || laterThan f g with
  | none => rfl
  | some g => exact absurd (latest_iff.2 ⟨List.mem_of_find?_eq_some found, of_find found⟩) (nowhere g)

theorem mem_candidates : f ∈ s.candidates ↔ f ∈ s.slots.complete ∧
    (∀ x ∈ s.roster.entries, TakesPart x → f ∈ x.said.list) ∧ ∀ r, s.reference = some r → laterThan f r = true := by
  have held : (s.participants.all fun e => e.said.list.contains f) = true ↔
      ∀ x ∈ s.roster.entries, TakesPart x → f ∈ x.said.list := by
    simp only [List.all_eq_true, mem_participants, List.contains_iff_mem, and_imp]
  rw [State.candidates, List.mem_filter, Bool.and_eq_true, held]
  refine and_congr_right fun _ => and_congr_right fun _ => ?_
  cases s.reference <;> simp

theorem decisionOf_eq_none_iff : s.decisionOf c = none ↔ s.candidates = [] := by
  unfold State.decisionOf
  cases c.policy with
  | next => exact List.head?_eq_none_iff
  | newest => exact List.getLast?_eq_none_iff

/-- The policy takes the earliest candidate or the latest (R25). -/
theorem decisionOf_policy (decided : s.decisionOf c = some f) : f ∈ s.candidates ∧
    (s.slots.complete.Pairwise (fun g h => laterThan h g = true) → ∀ g ∈ s.candidates,
      g = f ∨ (c.policy = .next ∧ laterThan g f = true) ∨ (c.policy = .newest ∧ laterThan f g = true)) := by
  have sorted : s.candidates.Sublist s.slots.complete := List.filter_sublist
  unfold State.decisionOf at decided
  cases policy : c.policy with
  | next =>
    rw [policy] at decided
    obtain ⟨rest, list⟩ := List.head?_eq_some_iff.1 decided
    refine ⟨by rw [list]; exact List.mem_cons_self, fun order g hg => ?_⟩
    have order := order.sublist sorted
    rw [list] at order hg
    exact (List.mem_cons.1 hg).imp_right fun k => .inl ⟨rfl, (List.pairwise_cons.1 order).1 g k⟩
  | newest =>
    rw [policy] at decided
    obtain ⟨front, list⟩ := List.getLast?_eq_some_iff.1 decided
    refine ⟨by rw [list]; simp, fun order g hg => ?_⟩
    have order := order.sublist sorted
    rw [list] at order hg
    refine (List.mem_append.1 hg).elim (fun k => .inr (.inr ⟨rfl, ?_⟩)) fun k => .inl (List.mem_singleton.1 k)
    exact (List.pairwise_append.1 order).2.2 g k f (List.mem_singleton.2 rfl)

/-- The decision reads the roster's entries, the shown frame and the complete list. -/
theorem decisionOf_congr (entries : s.roster.entries = t.roster.entries) (shown : s.presentation.shown = t.presentation.shown)
    (complete : s.slots.complete = t.slots.complete) : s.decisionOf c = t.decisionOf c := by
  have candidates : s.candidates = t.candidates := by
    unfold State.candidates State.reference State.shownFrames State.participants
    rw [entries, shown, complete]
  unfold State.decisionOf
  rw [candidates]

theorem composed_participants : (s.composed c).participants = BitVec.ofNat 8
    (1 + s.roster.entries.countP fun x => x.member && (x.said.lock == .locked || x.said.lock == .holdover)) := by
  have count : s.participants.length = s.roster.entries.countP Entry.participates := List.countP_eq_length_filter.symm
  rw [State.composed, count]
  rfl

/-! #### The composition of a frame start -/

/-- At the composition the role, the slots and the shown frame are those that the frame start leaves. -/
structure AtCompose (c : Settings) (timer : FrameTimer) (order : FrameOrder) (s v : State) (front rest : List FramePart) :
    Prop where
  split : SplitAt order .compose front rest
  before : v = startRun c (cutsFrame c timer.last timer.next) order.composeTicks front (s.timingFrameStart c timer.next)
  settled : v.loader.settled = some c
  role : v.role = (started c timer order s).role
  timing : v.timing = (started c timer order s).timing
  slots : v.slots = (started c timer order s).slots
  shown : v.presentation.shown = (started c timer order s).presentation.shown
  now : v.now = timer.next
  made : v.presentation.decisionsMade = s.presentation.decisionsMade
  after : started c timer order s =
    startRun c (cutsFrame c timer.last timer.next) order.composeTicks rest (v.composition c order.composeTicks)

theorem decisionsMade_presentationStep : s.presentationStep.presentation.decisionsMade = s.presentation.decisionsMade := by
  unfold State.presentationStep
  split
  · rfl
  · split
    · unfold State.applyDecision
      dsimp only
      split
      · rfl
      · split
        · rfl
        · split
          · rw [(presents_spec _ _ _ s).1]
          · rfl
    · split <;> rfl

theorem exists_atCompose (settled : s.loader.settled = some c) : ∃ v front rest, AtCompose c timer order s v front rest := by
  obtain ⟨front, rest, split⟩ := exists_splitAt order .compose
  obtain ⟨-, -, role_compose, present_compose, -, -, -⟩ := FrameOrder.taken_spec order
  let cut := cutsFrame c timer.last timer.next
  let base := s.timingFrameStart c timer.next
  let v := startRun c cut order.composeTicks front base
  have begun : Frame [.now, .timing, .notices] s base := .timingFrameStart s c timer.next
  have base_settled : base.loader.settled = some c := started_settled settled _
  have after : started c timer order s = startRun c cut order.composeTicks rest (v.composition c order.composeTicks) :=
    started_split split
  have no_role : FramePart.role ∉ rest := fun k => (split.mem_rest_iff.1 k).2 (split.mem_front_iff.2 role_compose)
  have no_present : FramePart.present ∉ rest := fun k => (split.mem_rest_iff.1 k).2 (split.mem_front_iff.2 present_compose)
  have composed : Frame (partChanges .compose) v (v.composition c order.composeTicks) :=
    frame_framePart cut order.composeTicks .compose
  have kept (p : Part) (hp : p = .role ∨ p = .timing ∨ p = .slots) : p.same (v.composition c order.composeTicks)
      (started c timer order s) := by
    rw [after]
    refine same_startRun fun x hx => ?_
    have hr : x ≠ .role := fun k => no_role (k ▸ hx)
    have hs : x ≠ .present := fun k => no_present (k ▸ hx)
    rcases hp with rfl | rfl | rfl <;> cases x <;> simp_all [partChanges]
  have v_settled : v.loader.settled = some c := settled_startRun base_settled
  have made {x : FramePart} (hx : x ∈ front) (a : State) : (a.framePart c cut order.composeTicks x).presentation.decisionsMade =
      a.presentation.decisionsMade := by
    have other : x ≠ .compose := fun k => split.not_front (k ▸ hx)
    cases x with
    | compose => exact absurd rfl other
    | present => exact decisionsMade_presentationStep
    | role | settle | firstLine | holds | offer | expire =>
      exact congrArg Presentation.decisionsMade ((frame_framePart cut _ _).2 .presentation (by decide)).symm
  refine ⟨v, front, rest, split, rfl, v_settled, ?_, ?_, ?_, ?_, ?_, ?_, after⟩
  · exact (composed.2 .role (by decide)).trans (kept .role (.inl rfl))
  · exact (composed.2 .timing (by decide)).trans (kept .timing (.inr (.inl rfl)))
  · exact (composed.2 .slots (by decide)).trans (kept .slots (.inr (.inr rfl)))
  · have next : (v.composition c order.composeTicks).loader.settled = some c :=
      (congrArg Loader.settled (composed.2 .loader (by decide))).symm.trans v_settled
    rw [after, shown_startRun no_present next]
    exact (shown_composition _).symm
  · have now : base.now = v.now := same_startRun (y := .now) fun x hx => by
      have other : x ≠ .compose := fun k => split.not_front (k ▸ hx)
      cases x <;> simp_all [partChanges]
    have start : base.now = timer.next :=
      ((Frame.examineLock (beforeExamine c timer.next s) timer.next).2 .now (by decide)).symm
    exact now.symm.trans start
  · exact (startRun_field (f := fun a : State => a.presentation.decisionsMade) (fun x hx a _ => made hx a) base_settled).trans
      (congrArg Presentation.decisionsMade (begun.2 .presentation (by decide))).symm

end Sys2Proof

/-! ### The composition and the STANDING offer at RING OUT (R26 to R28, R46, R118) -/

namespace Sys2Proof

open Sys2Proof.Machine

variable {s t u v w : State} {c : Settings} {timer : FrameTimer} {order : FrameOrder} {cut : Bool} {d : Tick}
  {front rest l : List FramePart} {x : FramePart} {z : Sending} {b : Beat}

/-! #### What leaves an idle RING OUT -/

/-- RING OUT is IDLE, and no packet and no LEAVE waits. -/
def FreeOut (s : State) : Prop :=
  s.ringOut.sending = none ∧ s.ringOut.queue = [] ∧ s.ringOut.leave = false

theorem FreeOut.of_placesBody (same : placesBody t = placesBody s) (h : FreeOut s) : FreeOut t := by
  obtain ⟨sending, queue, leave⟩ := h
  exact ⟨(congrArg RingTransmitter.sending same).trans sending, (congrArg RingTransmitter.queue same).trans queue,
    (congrArg RingTransmitter.leave same).trans leave⟩

/-- A STANDING offered at a free RING OUT begins, unless a BEAT waits (R47, R118). -/
theorem standingOffer_of_free (running : s.loader.station = .running) (settled : s.loader.settled = some c)
    (free : FreeOut s) (empty : s.ringOut.beat = none) : s.standingOffer =
      (ownSent c .standing 0 (ownSaid c s).payload
        (s.setRingOut { standingPlaced s.ringOut with standing := false })).ownStandingDeparts s.ringOut.sequence := by
  rw [standingOffer_of_running running]
  exact chooseOut_standing (s := s.setRingOut (standingPlaced s.ringOut)) free.1 free.2.1 settled free.2.2 empty rfl

/-- The BEAT departs, its Delay the time since its frame start (R121, R123). -/
def beatSent (c : Settings) (b : Beat) (s : State) : State :=
  ownSent c .beat (BitVec.ofNat 16 (min 65535 (sinceStart s))) b.payload
    (s.setRingOut
      { s.ringOut with
        beat := none,
        delayCapped := if 65535 ≤ sinceStart s then bump s.ringOut.delayCapped else s.ringOut.delayCapped })

theorem standingOffer_of_beat (running : s.loader.station = .running) (settled : s.loader.settled = some c)
    (free : FreeOut s) (waits : s.ringOut.beat = some b) :
    s.standingOffer = beatSent c b (s.setRingOut (standingPlaced s.ringOut)) := by
  rw [standingOffer_of_running running]
  exact chooseOut_beat (s := s.setRingOut (standingPlaced s.ringOut)) free.1 free.2.1 settled free.2.2 waits

theorem offerBeat_of_free (settled : s.loader.settled = some c) (free : FreeOut s) :
    s.offerBeat b = beatSent c b (s.setRingOut (beatPlaced b s.ringOut)) := by
  rw [offerBeat_eq]
  exact chooseOut_beat (s := s.setRingOut (beatPlaced b s.ringOut)) free.1 free.2.1 settled free.2.2 rfl

/-- An own packet is on its way, with the sequence number of `s`. -/
def DepartedFrom (s t : State) : Prop :=
  (∃ z, Sends z t) ∧ t.ringOut.sequence = s.ringOut.sequence + 1 ∧ t.ringOut.localSent = bump s.ringOut.localSent

theorem departedFrom_standingOffer (running : s.loader.station = .running) (settled : s.loader.settled = some c)
    (free : FreeOut s) : DepartedFrom s s.standingOffer := by
  cases beat : s.ringOut.beat with
  | none =>
    rw [standingOffer_of_free running settled free beat]
    unfold DepartedFrom Sends
    rw [ringOut_ownStandingDeparts]
    exact ⟨⟨_, rfl⟩, rfl, rfl⟩
  | some b =>
    rw [standingOffer_of_beat running settled free beat]
    exact ⟨⟨_, rfl⟩, rfl, rfl⟩

theorem DepartedFrom.of_sides (before : placesBody u = placesBody s) (after : sendSide v = sendSide t)
    (h : DepartedFrom u t) : DepartedFrom s v := by
  obtain ⟨⟨z, sends⟩, sequence, sent⟩ := h
  refine ⟨⟨z, (congrArg RingTransmitter.sending after).trans sends⟩,
    (congrArg RingTransmitter.sequence after).trans (sequence.trans (congrArg (fun r : RingTransmitter => r.sequence + 1) before :)),
    (congrArg RingTransmitter.localSent after).trans (sent.trans (congrArg (fun r : RingTransmitter => bump r.localSent) before :))⟩

/-! #### After the composition -/

theorem sendSide_startRun (h : Sends z s) (absent : FramePart.compose ∉ l) :
    sendSide (startRun c cut d l s) = sendSide s := by
  refine startRun_still (may := fun x u => Sends z u ∧ x ≠ .compose) (fun x u k => sendSide_of_busy k.1 k.2) ?_
  rintro l1 x l2 rfl
  exact ⟨h.startRun, fun k => absent (by simp [k])⟩

theorem rosterBody_startRun (h : Sends z s) : rosterBody (startRun c cut d l s) = rosterBody s :=
  startRun_still (may := fun _ u => Sends z u) (fun _ _ k => rosterBody_of_roster (roster_framePart_of_busy k)) (.of_sends h)

namespace AtCompose

variable (h : AtCompose c timer order s v front rest)
include h

theorem composes (origin : (started c timer order s).role.role = .origin) : v.composition c order.composeTicks =
    (beforeBeat c order.composeTicks v).offerBeat (v.composed c) := composition_of_origin (h.role ▸ origin)

theorem no_present : FramePart.present ∉ rest := fun k =>
  (h.split.mem_rest_iff.1 k).2 (h.split.mem_front_iff.2 (FrameOrder.taken_spec order).2.2.2.1)

/-- Nothing behind the composition reaches the Presentation Controller or station time. -/
theorem kept_after {p : Part} (hp : p = .presentation ∨ p = .now) :
    p.same (v.composition c order.composeTicks) (started c timer order s) := by
  rw [h.after]
  refine same_startRun fun x hx => ?_
  have hc : x ≠ .compose := fun k => h.split.not_rest (k ▸ hx)
  have hs : x ≠ .present := fun k => h.no_present (k ▸ hx)
  rcases hp with rfl | rfl <;> cases x <;> simp_all [partChanges]

theorem presentation_after (origin : (started c timer order s).role.role = .origin) :
    (started c timer order s).presentation = v.presentation.composed v.timing.epoch (v.decisionOf c) := by
  refine (h.kept_after (.inl rfl)).symm.trans (presentation_composition.trans ?_)
  exact if_pos (h.role ▸ origin)

theorem now_after (origin : (started c timer order s).role.role = .origin) :
    (started c timer order s).now = (beforeBeat c order.composeTicks v).now := by
  refine (h.kept_after (.inr rfl)).symm.trans ?_
  rw [h.composes origin]
  exact ((Frame.offerBeat _ _).2 .now (by decide)).symm

/-- What a busy RING OUT keeps to the end of the frame start. -/
theorem sides_after (sends : Sends z (v.composition c order.composeTicks)) :
    sendSide (started c timer order s) = sendSide (v.composition c order.composeTicks) ∧
      rosterBody (started c timer order s) = rosterBody (v.composition c order.composeTicks) := by
  rw [h.after]
  exact ⟨sendSide_startRun sends h.split.not_rest, rosterBody_startRun sends⟩

/-- The decision and the BEAT are those that the state after the frame start gives. -/
theorem composed_eq (settled : s.loader.settled = some c)
    (entries : v.roster.entries = (started c timer order s).roster.entries) :
    v.decisionOf c = (started c timer order s).decisionOf c ∧
      v.composed c = beatAtFrameStart c s (started c timer order s) := by
  have decision : v.decisionOf c = (started c timer order s).decisionOf c :=
    decisionOf_congr entries h.shown (congrArg SlotManager.complete h.slots)
  have epoch : v.timing.epoch = s.timing.epoch + 1 :=
    (congrArg TimingUnit.epoch h.timing).trans (startFields_started settled).2.1
  have participants := composed_participants (s := v) (c := c)
  rw [entries] at participants
  refine ⟨decision, ?_⟩
  have fields : v.composed c = ⟨v.timing.epoch, v.decisionOf c, BitVec.ofNat 24 c.period, (v.composed c).participants⟩ := rfl
  rw [fields, epoch, decision, participants]
  rfl

theorem decision_after (settled : s.loader.settled = some c)
    (entries : v.roster.entries = (started c timer order s).roster.entries)
    (origin : (started c timer order s).role.role = .origin) : let t := started c timer order s
    t.presentation.decision = (t.decisionOf c).map (fun f => ⟨s.timing.epoch + 2, f⟩) ∧
      t.presentation.decisionsMade =
        (if (t.decisionOf c).isSome then bump s.presentation.decisionsMade else s.presentation.decisionsMade) := by
  intro t
  have epoch : v.timing.epoch = s.timing.epoch + 1 :=
    (congrArg TimingUnit.epoch h.timing).trans (startFields_started settled).2.1
  have two : s.timing.epoch + 1 + 1 = s.timing.epoch + 2 := by
    rw [BitVec.add_assoc]
    rfl
  rw [show t.presentation = _ from h.presentation_after origin, (h.composed_eq settled entries).1, epoch]
  unfold Presentation.composed
  cases State.decisionOf c (started c timer order s) with
  | none => exact ⟨rfl, h.made⟩
  | some f =>
    rw [two]
    exact ⟨rfl, congrArg bump h.made⟩

end AtCompose

/-! #### Behind a busy RING OUT -/

theorem sends_base (sends : Sends z s) (t : Tick) : Sends z (s.timingFrameStart c t) :=
  (congrArg RingTransmitter.sending ((Frame.timingFrameStart s c t).2 .ringOut (by decide))).symm.trans sends

theorem sides_base (t : Tick) : placesBody (s.timingFrameStart c t) = placesBody s ∧
    sendSide (s.timingFrameStart c t) = sendSide s ∧ rosterBody (s.timingFrameStart c t) = rosterBody s := by
  have begun := Frame.timingFrameStart s c t
  unfold sendSide placesBody rosterBody
  rw [← begun.2 .ringOut (by decide), ← begun.2 .roster (by decide)]
  exact ⟨rfl, rfl, rfl⟩

/-- The BEAT of an ORIGIN waits in its place (R26, R115). -/
theorem composition_started_of_busy (settled : s.loader.settled = some c) (sends : Sends z s)
    (origin : (started c timer order s).role.role = .origin) : let t := started c timer order s
    t.ringOut.beat = some (beatAtFrameStart c s t) ∧
      t.ringOut.beatReplaced = (if s.ringOut.beat.isSome then bump s.ringOut.beatReplaced else s.ringOut.beatReplaced) ∧
      t.presentation.decision = (t.decisionOf c).map (fun f => ⟨s.timing.epoch + 2, f⟩) ∧
      t.presentation.decisionsMade =
        (if (t.decisionOf c).isSome then bump s.presentation.decisionsMade else s.presentation.decisionsMade) := by
  intro t
  obtain ⟨v, front, rest, at_compose⟩ := exists_atCompose (timer := timer) (order := order) settled
  have v_sends : Sends z v := at_compose.before ▸ (sends_base sends timer.next).startRun
  have v_origin : v.role.role = .origin := at_compose.role ▸ origin
  have composed := composition_of_busy (c := c) (d := order.composeTicks) v_origin v_sends.busy
  have y_sends : Sends z (v.composition c order.composeTicks) := by
    rw [composed]
    exact v_sends
  obtain ⟨side, roster⟩ := at_compose.sides_after y_sends
  have y_roster : (v.composition c order.composeTicks).roster = v.roster := by
    rw [composed]
    exact (frame_beforeBeat.2 .roster (by decide)).symm
  have entries : v.roster.entries = t.roster.entries :=
    (congrArg RosterUnit.entries y_roster).symm.trans (congrArg RosterUnit.entries roster).symm
  have v_side : sendSide v = sendSide s := by
    rw [at_compose.before, sendSide_startRun (sends_base sends timer.next) at_compose.split.not_front, (sides_base _).2.1]
  have beat : v.ringOut.beat = s.ringOut.beat := (congrArg RingTransmitter.beat v_side :)
  have replaced : v.ringOut.beatReplaced = s.ringOut.beatReplaced := (congrArg RingTransmitter.beatReplaced v_side :)
  refine ⟨?_, ?_, at_compose.decision_after settled entries origin⟩
  · refine (congrArg RingTransmitter.beat side).trans ?_
    rw [composed]
    exact congrArg some (at_compose.composed_eq settled entries).2
  · refine (congrArg RingTransmitter.beatReplaced side).trans ?_
    rw [composed, ← beat, ← replaced]
    rfl

/-- A station that is not ORIGIN composes nothing. -/
theorem composition_started_of_other (settled : s.loader.settled = some c) (sends : Sends z s)
    (other : (started c timer order s).role.role ≠ .origin) : let t := started c timer order s
    t.ringOut.beat = s.ringOut.beat ∧ t.ringOut.beatReplaced = s.ringOut.beatReplaced ∧
      t.presentation.decisionsMade = s.presentation.decisionsMade := by
  intro t
  obtain ⟨v, front, rest, at_compose⟩ := exists_atCompose (timer := timer) (order := order) settled
  have v_sends : Sends z v := at_compose.before ▸ (sends_base sends timer.next).startRun
  have idle : v.composition c order.composeTicks = v := composition_of_not_origin (at_compose.role ▸ other)
  have v_side : sendSide v = sendSide s := by
    rw [at_compose.before, sendSide_startRun (sends_base sends timer.next) at_compose.split.not_front, (sides_base _).2.1]
  have side : sendSide t = sendSide s := (at_compose.sides_after (idle.symm ▸ v_sends)).1.trans (idle.symm ▸ v_side)
  refine ⟨(congrArg RingTransmitter.beat side :), (congrArg RingTransmitter.beatReplaced side :), ?_⟩
  have kept : (v.composition c order.composeTicks).presentation = t.presentation := at_compose.kept_after (.inl rfl)
  rw [← kept, idle]
  exact at_compose.made

end Sys2Proof

/-! ### The composition at a free RING OUT (R26, R27, R118, R123) -/

namespace Sys2Proof

open Sys2Proof.Machine

variable {s t u v w : State} {c : Settings} {timer : FrameTimer} {order : FrameOrder} {cut : Bool} {d : Tick}
  {front rest l : List FramePart} {x : FramePart} {z : Sending} {b : Beat}

/-- Nothing is composed and no STANDING offered through the parts of a list. -/
theorem sides_startRun_of_quiet (composes : .compose ∈ l → (startRun c cut d l s).role.role ≠ .origin)
    (offers : .offer ∈ l → s.loader.station ≠ .running) :
    placesBody (startRun c cut d l s) = placesBody s ∧ rosterBody (startRun c cut d l s) = rosterBody s :=
  ⟨startRun_still (fun _ _ k => placesBody_of_quiet k) (.quiet composes offers),
    startRun_still (fun _ _ k => rosterBody_of_roster (framePart_of_quiet k).2) (.quiet composes offers)⟩

theorem station_startRun : (startRun c cut d l s).loader.station = s.loader.station :=
  congrArg Loader.station (same_startRun (y := .loader) fun x _ => by cases x <;> decide).symm

theorem standingPlace_startRun (h : Sends z s) (absent : FramePart.offer ∉ l) :
    standingPlace (startRun c cut d l s) = standingPlace s := by
  refine startRun_still (may := fun x u => Sends z u ∧ x ≠ .offer) (fun x u k => standingPlace_framePart k.1 k.2) ?_
  rintro l1 x l2 rfl
  exact ⟨h.startRun, fun k => absent (by simp [k])⟩

namespace AtCompose

variable (h : AtCompose c timer order s v front rest)
include h

/-- The Delay of the BEAT is the time that the composition has taken. -/
theorem sinceStart_eq (settled : s.loader.settled = some c) (origin : (started c timer order s).role.role = .origin) :
    sinceStart (beforeBeat c order.composeTicks v) = ((started c timer order s).now - timer.next).toNat := by
  have timing : (beforeBeat c order.composeTicks v).timing = (started c timer order s).timing :=
    (frame_beforeBeat.2 .timing (by decide)).symm.trans h.timing
  have running : (started c timer order s).timing.timer = _ := (startFields_started settled).1
  unfold sinceStart
  rw [timing, running, h.now_after origin]
  rfl

/-- Station time goes on by the ticks that the composition takes (log 14). -/
theorem now_of_short (settled : s.loader.settled = some c) (origin : (started c timer order s).role.role = .origin)
    (within : order.composeTicks.toNat ≤ c.lineTicks * (c.vb + c.h)) (short : c.lineTicks * (c.vb + c.h) < 2147483648) :
    (started c timer order s).now = timer.next + order.composeTicks := by
  have running : v.timing.timer = some ⟨timer.next, timer.next + BitVec.ofNat 32 c.period, 0⟩ :=
    (congrArg TimingUnit.timer h.timing).trans (startFields_started settled).1
  have ahead : (timer.next + BitVec.ofNat 32 c.period - v.now).toNat = c.period := by
    have short : c.period < 2147483648 := short
    rw [h.now, BitVec.add_comm, BitVec.add_sub_cancel, BitVec.toNat_ofNat]
    exact Nat.mod_eq_of_lt (by omega)
  let w := v.setPresentation (v.presentation.composed v.timing.epoch (v.decisionOf c))
  rw [h.now_after origin]
  refine (now_passTicks_of_timer (s := w) running (ahead.trans_lt short)).trans ((if_pos ?_).trans ?_)
  · exact within.trans_eq ahead.symm
  · exact congrArg (· + order.composeTicks) h.now

/-- The composition finds a free RING OUT, and its BEAT departs. -/
theorem beat_of_free (settled : s.loader.settled = some c) (origin : (started c timer order s).role.role = .origin)
    (places : placesBody v = placesBody s) (free : FreeOut s) : let t := started c timer order s
    let y := v.composition c order.composeTicks
    y.roster = v.roster ∧ standingPlace y = standingPlace v ∧ DepartedFrom v y ∧ y.ringOut.beat = none ∧
      y.ringOut.sending = (ownSent c .beat (BitVec.ofNat 16 (min 65535 (t.now - timer.next).toNat))
        (v.composed c).payload s).ringOut.sending ∧
      y.ringOut.delayCapped =
        (if 65535 ≤ (t.now - timer.next).toNat then bump s.ringOut.delayCapped else s.ringOut.delayCapped) := by
  intro t y
  let w := beforeBeat c order.composeTicks v
  have w_ring : w.ringOut = v.ringOut := ringOut_beforeBeat
  have w_settled : w.loader.settled = some c :=
    (congrArg Loader.settled (frame_beforeBeat.2 .loader (by decide))).symm.trans h.settled
  have w_free : FreeOut w := by
    unfold FreeOut
    rw [w_ring]
    exact free.of_placesBody places
  have composed : y = beatSent c (v.composed c) (w.setRingOut (beatPlaced (v.composed c) w.ringOut)) :=
    (h.composes origin).trans (offerBeat_of_free w_settled w_free)
  have delay : sinceStart (w.setRingOut (beatPlaced (v.composed c) w.ringOut)) = (t.now - timer.next).toNat :=
    h.sinceStart_eq settled origin
  have sequence : v.ringOut.sequence = s.ringOut.sequence := (congrArg RingTransmitter.sequence places :)
  have capped : v.ringOut.delayCapped = s.ringOut.delayCapped := (congrArg RingTransmitter.delayCapped places :)
  rw [composed, beatSent, delay, w_ring]
  refine ⟨(frame_beforeBeat.2 .roster (by decide)).symm, rfl, ⟨⟨_, rfl⟩, rfl, rfl⟩, rfl, ?_, ?_⟩
  · unfold ownSent
    dsimp only [State.setRingOut]
    rw [← sequence]
    rfl
  · rw [← capped]
    rfl

end AtCompose

end Sys2Proof

/-! ### Which of the composition and the STANDING offer begins (R118) -/

namespace Sys2Proof

open Sys2Proof.Machine

variable {s t u v w : State} {c : Settings} {timer : FrameTimer} {order : FrameOrder} {cut : Bool} {d : Tick}
  {front rest l : List FramePart} {x : FramePart} {z : Sending} {b : Beat}

/-- The STANDING place behind a busy RING OUT, by whether the offer is still to come. -/
theorem standing_startRun (h : Sends z s) (nodup : l.Nodup) : (startRun c cut d l s).ringOut.standing =
    if .offer ∈ l then decide (s.loader.station = .running) || s.ringOut.standing else s.ringOut.standing := by
  refine startRun_once (f := fun u : State => u.ringOut.standing)
    (g := fun standing => decide (s.loader.station = .running) || standing)
    (may := fun _ u => Sends z u ∧ u.loader.station = s.loader.station) (fun x u other k => ?_) (fun u k => ?_) nodup
    fun _ _ _ _ => ⟨h.startRun, station_startRun⟩
  · exact congrArg Prod.fst (standingPlace_framePart k.1 other)
  · obtain ⟨sends, station⟩ := k
    rw [ringOut_framePart_of_busy sends]
    dsimp only
    by_cases running : s.loader.station = .running
    · rw [if_pos (station.trans running), decide_eq_true running]
      rfl
    · rw [if_neg fun k => running (station.symm.trans k), decide_eq_false running]
      rfl

theorem nodup_rest (split : SplitAt order .compose front rest) : rest.Nodup := by
  have nodup := nodup_taken order
  rw [split.taken] at nodup
  exact (List.nodup_cons.1 nodup.of_append_right).2

/-- What stands after a frame start at which an own packet departs. -/
def ComposedWith (c : Settings) (s t : State) : Prop :=
  t.ringOut.sequence = s.ringOut.sequence + 1 ∧ t.ringOut.localSent = bump s.ringOut.localSent ∧
    t.presentation.decision = (t.decisionOf c).map (fun f => ⟨s.timing.epoch + 2, f⟩) ∧
    t.presentation.decisionsMade =
      (if (t.decisionOf c).isSome then bump s.presentation.decisionsMade else s.presentation.decisionsMade)

/-- The BEAT departs, and the STANDING waits behind it (R53). -/
theorem started_of_beatFirst (settled : s.loader.settled = some c) (free : FreeOut s)
    (origin : (started c timer order s).role.role = .origin)
    (beatFirst : ¬ (s.loader.station = .running ∧ FramePart.before order.taken .offer .compose = true)) :
    let t := started c timer order s
    let delay := (t.now - timer.next).toNat
    ComposedWith c s t ∧ t.ringOut.beat = none ∧
      t.ringOut.sending = (ownSent c .beat (BitVec.ofNat 16 (min 65535 delay))
        (beatAtFrameStart c s t).payload s).ringOut.sending ∧
      t.ringOut.delayCapped = (if 65535 ≤ delay then bump s.ringOut.delayCapped else s.ringOut.delayCapped) ∧
      t.roster.entries = s.roster.entries ∧ t.roster.ownSequence = s.roster.ownSequence ∧
      t.ringOut.standing = (decide (s.loader.station = .running) || s.ringOut.standing) := by
  intro t delay
  obtain ⟨v, front, rest, h⟩ := exists_atCompose (timer := timer) (order := order) settled
  have offers : .offer ∈ front → s.loader.station ≠ .running := fun k running =>
    beatFirst ⟨running, h.split.mem_front_iff.1 k⟩
  have base_station : (s.timingFrameStart c timer.next).loader.station = s.loader.station :=
    congrArg Loader.station (loader_timingFrameStart timer.next)
  obtain ⟨run_places, run_roster⟩ := sides_startRun_of_quiet (c := c) (cut := cutsFrame c timer.last timer.next)
    (d := order.composeTicks) (l := front) (s := s.timingFrameStart c timer.next)
    (fun k => absurd k h.split.not_front) fun k => base_station ▸ offers k
  obtain ⟨base_places, -, base_roster⟩ := sides_base (s := s) (c := c) timer.next
  have places : placesBody v = placesBody s := h.before ▸ run_places.trans base_places
  have v_roster : rosterBody v = rosterBody s := h.before ▸ run_roster.trans base_roster
  obtain ⟨y_roster, y_place, departed, beat, sending, capped⟩ := h.beat_of_free settled origin places free
  have ⟨⟨z, sends⟩, _, _⟩ := departed
  obtain ⟨side, roster⟩ := h.sides_after sends
  have t_roster : rosterBody t = rosterBody v :=
    roster.trans (congrArg (fun r : RosterUnit => { r with conflictHold := 0, mismatchHold := 0 }) y_roster)
  have entries : v.roster.entries = t.roster.entries := (congrArg RosterUnit.entries t_roster :).symm
  have all_roster : rosterBody t = rosterBody s := t_roster.trans v_roster
  obtain ⟨-, sequence, sent⟩ := departed.of_sides places side
  obtain ⟨-, composed⟩ := h.composed_eq settled entries
  rw [composed] at sending
  refine ⟨⟨sequence, sent, h.decision_after settled entries origin⟩, (congrArg RingTransmitter.beat side :).trans beat,
    (congrArg RingTransmitter.sending side :).trans sending, (congrArg RingTransmitter.delayCapped side :).trans capped,
    (congrArg RosterUnit.entries all_roster :), (congrArg RosterUnit.ownSequence all_roster :), ?_⟩
  have y_standing : (v.composition c order.composeTicks).ringOut.standing = s.ringOut.standing :=
    (congrArg Prod.fst y_place).trans (congrArg RingTransmitter.standing places :)
  have y_station : (v.composition c order.composeTicks).loader.station = s.loader.station := by
    have v_station : v.loader.station = s.loader.station := h.before ▸ station_startRun.trans base_station
    exact (congrArg Loader.station ((Frame.composition v c order.composeTicks).2 .loader (by decide))).symm.trans v_station
  have standing := standing_startRun (c := c) (cut := cutsFrame c timer.last timer.next) (d := order.composeTicks) sends
    (nodup_rest h.split)
  rw [← h.after, y_standing, y_station] at standing
  by_cases later : FramePart.offer ∈ rest
  · exact standing.trans (if_pos later)
  · have idle : s.loader.station ≠ .running := by
      refine offers (by_contra fun k => later (h.split.mem_rest_iff.2 ⟨by decide, k⟩))
    rw [decide_eq_false idle]
    exact standing.trans (if_neg later)

/-- The STANDING begins where the place holds no BEAT, and the BEAT waits in its place. -/
theorem started_of_standingFirst (settled : s.loader.settled = some c) (free : FreeOut s)
    (origin : (started c timer order s).role.role = .origin) (running : s.loader.station = .running)
    (early : FramePart.before order.taken .offer .compose = true) :
    let t := started c timer order s
    ComposedWith c s t ∧ (s.ringOut.beat = none →
      (∃ x, t.ringOut.sending = some x ∧ x.source = .own .standing) ∧
        t.ringOut.beat = some (beatAtFrameStart c s t) ∧ t.ringOut.beatReplaced = s.ringOut.beatReplaced ∧
        t.ringOut.delayCapped = s.ringOut.delayCapped ∧ t.ringOut.standing = false) := by
  intro t
  obtain ⟨v, front, rest, h⟩ := exists_atCompose (timer := timer) (order := order) settled
  obtain ⟨f1, f2, rfl⟩ := List.append_of_mem (h.split.mem_front_iff.2 early)
  let cut := cutsFrame c timer.last timer.next
  let base := s.timingFrameStart c timer.next
  let u := startRun c cut order.composeTicks f1 base
  have taken : order.taken = f1 ++ .offer :: (f2 ++ .compose :: rest) := by
    rw [h.split.taken, List.append_assoc]
    rfl
  have nodup := nodup_taken order
  rw [taken] at nodup
  have absent := (List.nodup_cons.1 (List.nodup_middle.1 nodup)).1
  have no_offer1 : FramePart.offer ∉ f1 := fun k => absent (List.mem_append_left _ k)
  have no_offer2 : FramePart.offer ∉ f2 := fun k => absent (by simp [k])
  have no_offer3 : FramePart.offer ∉ rest := fun k => absent (by simp [k])
  have no_compose1 : FramePart.compose ∉ f1 := fun k => h.split.not_front (by simp [k])
  have no_compose2 : FramePart.compose ∉ f2 := fun k => h.split.not_front (by simp [k])
  obtain ⟨run_places, -⟩ := sides_startRun_of_quiet (c := c) (cut := cut) (d := order.composeTicks) (l := f1) (s := base)
    (fun k => absurd k no_compose1) fun k => absurd k no_offer1
  obtain ⟨base_places, -, -⟩ := sides_base (s := s) (c := c) timer.next
  have places : placesBody u = placesBody s := run_places.trans base_places
  have u_running : u.loader.station = .running :=
    station_startRun.trans ((congrArg Loader.station (loader_timingFrameStart timer.next)).trans running)
  have u_settled : u.loader.settled = some c := settled_startRun (started_settled settled _)
  have u_free : FreeOut u := free.of_placesBody places
  have departed := departedFrom_standingOffer u_running u_settled u_free
  have ⟨⟨z, sends⟩, _, _⟩ := departed
  have before : v = startRun c cut order.composeTicks f2 u.standingOffer := by
    rw [h.before, startRun, List.foldl_append]
    rfl
  have v_sends : Sends z v := before ▸ sends.startRun
  have v_origin : v.role.role = .origin := h.role ▸ origin
  have composed := composition_of_busy (c := c) (d := order.composeTicks) v_origin v_sends.busy
  have y_sends : Sends z (v.composition c order.composeTicks) := by
    rw [composed]
    exact v_sends
  obtain ⟨side, roster⟩ := h.sides_after y_sends
  have y_roster : (v.composition c order.composeTicks).roster = v.roster := by
    rw [composed]
    exact (frame_beforeBeat.2 .roster (by decide)).symm
  have entries : v.roster.entries = t.roster.entries :=
    (congrArg RosterUnit.entries y_roster).symm.trans (congrArg RosterUnit.entries roster :).symm
  have v_side : sendSide v = sendSide u.standingOffer := before ▸ sendSide_startRun sends no_compose2
  have t_ring : sendSide t = { sendSide v with
      beat := some (v.composed c),
      beatReplaced := if v.ringOut.beat.isSome then bump v.ringOut.beatReplaced else v.ringOut.beatReplaced } := by
    refine side.trans ?_
    rw [composed]
    rfl
  obtain ⟨-, sequence, sent⟩ := departed.of_sides places v_side
  refine ⟨⟨(congrArg RingTransmitter.sequence t_ring :).trans sequence, (congrArg RingTransmitter.localSent t_ring :).trans sent,
    h.decision_after settled entries origin⟩, fun empty => ?_⟩
  have u_empty : u.ringOut.beat = none := (congrArg RingTransmitter.beat places :).trans empty
  have u_ring : u.standingOffer.ringOut = (ownSent c .standing 0 (ownSaid c u).payload
      (u.setRingOut { standingPlaced u.ringOut with standing := false })).ringOut := by
    rw [standingOffer_of_free u_running u_settled u_free u_empty, ringOut_ownStandingDeparts]
  have v_beat : v.ringOut.beat = none := (congrArg RingTransmitter.beat v_side :).trans ((congrArg RingTransmitter.beat u_ring :).trans u_empty)
  have v_replaced : v.ringOut.beatReplaced = s.ringOut.beatReplaced :=
    (congrArg RingTransmitter.beatReplaced v_side :).trans
      ((congrArg RingTransmitter.beatReplaced u_ring :).trans (congrArg RingTransmitter.beatReplaced places :))
  refine ⟨?_, ?_, ?_, ?_, ?_⟩
  · have sending : t.ringOut.sending = u.standingOffer.ringOut.sending :=
      (congrArg RingTransmitter.sending t_ring :).trans (congrArg RingTransmitter.sending v_side :)
    rw [sending, u_ring]
    exact ⟨_, rfl, rfl⟩
  · refine (congrArg RingTransmitter.beat t_ring :).trans (congrArg some (h.composed_eq settled entries).2)
  · refine (congrArg RingTransmitter.beatReplaced t_ring :).trans ?_
    rw [v_beat, v_replaced]
    rfl
  · refine (congrArg RingTransmitter.delayCapped t_ring :).trans ((congrArg RingTransmitter.delayCapped v_side :).trans ?_)
    exact (congrArg RingTransmitter.delayCapped u_ring :).trans (congrArg RingTransmitter.delayCapped places :)
  · have v_place : standingPlace v = standingPlace u.standingOffer := before ▸ standingPlace_startRun sends no_offer2
    have y_place : standingPlace (v.composition c order.composeTicks) = standingPlace v :=
      standingPlace_framePart (x := .compose) (cut := cut) v_sends (by decide)
    have t_place : standingPlace t = standingPlace (v.composition c order.composeTicks) :=
      (congrArg standingPlace h.after).trans (standingPlace_startRun y_sends no_offer3)
    refine (congrArg Prod.fst (t_place.trans (y_place.trans v_place)) :).trans ?_
    exact congrArg RingTransmitter.standing u_ring

/-- Settles O27: the decision by the policy; at a frame start, by what RING OUT does when the composition reaches it. -/
theorem decisionGuarantee : Obligations.DecisionGuarantee := by
  refine ⟨fun c s => ?_, fun e order c timer s runs busy => ?_, fun e order c timer s runs idle empty leave => ?_⟩
  · intro takesPart shows latest
    exact ⟨rfl, decisionOf_eq_none_iff, fun _ => reference_of_latest, reference_of_none, fun _ => mem_candidates,
      fun _ => decisionOf_policy⟩
  · intro b
    obtain ⟨z, sends⟩ := Option.ne_none_iff_exists'.1 busy
    exact ⟨started c timer order b, exec_frameStart_of_runs runs, composition_started_of_busy runs.2.1 sends,
      composition_started_of_other runs.2.1 sends⟩
  · intro b period
    have settled := runs.2.1
    have free : FreeOut b := ⟨idle, empty, leave⟩
    have station : b.loader.station = s.loader.station := elapse_station
    refine ⟨started c timer order b, exec_frameStart_of_runs runs, fun within short origin => ?_, fun origin => ?_⟩
    · obtain ⟨v, front, rest, h⟩ := exists_atCompose (timer := timer) (order := order) settled
      exact h.now_of_short settled origin within short
    · intro beat delay standingFirst
      by_cases first : standingFirst
      · obtain ⟨⟨sequence, sent, decision, made⟩, waits⟩ := started_of_standingFirst settled free origin
          (station.trans first.1) first.2
        exact ⟨sequence, sent, decision, made, fun k => absurd first k, fun _ => waits⟩
      · obtain ⟨⟨sequence, sent, decision, made⟩, departs⟩ := started_of_beatFirst settled free origin
          fun k => first ⟨station.symm.trans k.1, k.2⟩
        rw [station] at departs
        exact ⟨sequence, sent, decision, made, fun _ => departs, fun k => absurd k first⟩

end Sys2Proof

/-! ### The departure of the own STANDING at a frame start (R44 to R47, R53) -/

namespace Sys2Proof

open Sys2Proof.Machine

variable {s t u v w : State} {e : Elapsed} {c : Settings} {timer : FrameTimer} {order : FrameOrder} {cut : Bool} {d : Tick}
  {front rest l : List FramePart} {x : FramePart} {z : Sending} {count : BitVec 16}

/-! #### RING OUT and the roster, whole, where nothing departs -/

/-- What an expiry at frame-start count `count` makes of RING OUT (R125). -/
def expiredOut (count : BitVec 16) (r : RingTransmitter) : RingTransmitter :=
  { r with
    outstanding := r.outstanding.filter (fun o => !o.old count),
    lostOwn := bumpBy (r.outstanding.countP (Outstanding.old count)) r.lostOwn,
    ring := if r.outstanding.countP (Outstanding.old count) = 0 then r.ring else .broken }

theorem ringOut_expireOld_eq : s.expireOld.ringOut = expiredOut s.timing.frameCount s.ringOut := by
  unfold expiredOut
  rcases Nat.eq_zero_or_pos (oldEntries s) with none_old | some_old
  · have young : s.ringOut.outstanding.countP (Outstanding.old s.timing.frameCount) = 0 := none_old
    have all : s.ringOut.outstanding.filter (fun o => !o.old s.timing.frameCount) = s.ringOut.outstanding := by
      refine List.filter_eq_self.2 fun o ho => ?_
      simpa using List.countP_eq_zero.1 young o ho
    rw [expireOld_of_none none_old, young, all, bumpBy_zero, if_pos rfl]
  · have old : ¬ s.ringOut.outstanding.countP (Outstanding.old s.timing.frameCount) = 0 := some_old.ne'
    rw [expireOld_of_some some_old, if_neg old]
    rfl

theorem frameCount_framePart : (s.framePart c cut d x).timing.frameCount = s.timing.frameCount := by
  have kept : StartFields s.timing (s.framePart c cut d x) := StartFields.framePart ⟨rfl, rfl, rfl, rfl⟩
  exact kept.2.2.1

theorem frameCount_startRun : (startRun c cut d l s).timing.frameCount = s.timing.frameCount := by
  induction l generalizing s with
  | nil => rfl
  | cons x l ih => exact ih.trans frameCount_framePart

/-- Where nothing departs, an expiry alone reaches RING OUT, and the count-down of the holds alone the roster. -/
theorem startRun_of_quiet (nodup : l.Nodup) (quiet : Reached QuietPart c cut d l s) :
    (startRun c cut d l s).ringOut =
        (if .expire ∈ l then expiredOut s.timing.frameCount s.ringOut else s.ringOut) ∧
      (startRun c cut d l s).roster = if .holds ∈ l then s.roster.countHolds else s.roster := by
  refine ⟨?_, ?_⟩
  · refine startRun_once (f := State.ringOut) (g := expiredOut s.timing.frameCount)
      (may := fun x u => QuietPart x u ∧ u.timing.frameCount = s.timing.frameCount) (fun x u other k => ?_)
      (fun u k => ?_) nodup fun l1 x l2 e => ⟨quiet l1 x l2 e, frameCount_startRun⟩
    · exact (framePart_of_quiet k.1).1.trans (if_neg other)
    · exact (ringOut_expireOld_eq (s := u)).trans (by rw [k.2])
  · refine startRun_once (f := State.roster) (g := RosterUnit.countHolds) (fun x u other k => ?_) (fun u k => ?_) nodup quiet
    · exact (framePart_of_quiet k).2.trans (if_neg other)
    · exact (framePart_of_quiet k).2.trans (if_pos rfl)

/-! #### What an own packet keeps behind a busy RING OUT -/

/-- The packet on its way and the counts of it. -/
def sentBody (s : State) : Option Sending × Byte × Counter :=
  (s.ringOut.sending, s.ringOut.sequence, s.ringOut.localSent)

theorem sentBody_startRun (h : Sends z s) : sentBody (startRun c cut d l s) = sentBody s := by
  refine startRun_still (may := fun _ u => Sends z u) (fun x u k => ?_) (.of_sends h)
  by_cases composes : x = .compose
  · subst composes
    unfold sentBody
    rw [ringOut_framePart_of_busy k]
    dsimp only
    split <;> rfl
  · exact (congrArg (fun r : RingTransmitter => (r.sending, r.sequence, r.localSent)) (sendSide_of_busy k composes) :)

/-! #### The offer of a frame start at a free RING OUT -/

/-- At the STANDING offer nothing has departed, and the packet that begins there is the station's own STANDING. -/
structure AtOffer (c : Settings) (timer : FrameTimer) (order : FrameOrder) (s v : State) (front rest : List FramePart) :
    Prop where
  split : SplitAt order .offer front rest
  before : v = startRun c (cutsFrame c timer.last timer.next) order.composeTicks front (s.timingFrameStart c timer.next)
  quiet : Reached QuietPart c (cutsFrame c timer.last timer.next) order.composeTicks front (s.timingFrameStart c timer.next)
  settled : v.loader.settled = some c
  after : started c timer order s =
    startRun c (cutsFrame c timer.last timer.next) order.composeTicks rest v.standingOffer

theorem exists_atOffer (settled : s.loader.settled = some c)
    (first : (started c timer order s).role.role ≠ .origin ∨ FramePart.before order.taken .offer .compose = true) :
    ∃ v front rest, AtOffer c timer order s v front rest := by
  obtain ⟨front, rest, split⟩ := exists_splitAt order .offer
  have after : started c timer order s = _ := started_split split
  refine ⟨_, front, rest, split, rfl, .quiet (fun composes => ?_) fun k => absurd k split.not_front,
    settled_startRun (started_settled settled _), after⟩
  rcases first with other | early
  · rw [after] at other
    intro origin
    refine other (origin_startRun ?_)
    rw [role_framePart (by decide)]
    exact origin
  · exact absurd composes (split.not_mem_front early)

namespace AtOffer

variable (h : AtOffer c timer order s v front rest)
include h

theorem nodup : front.Nodup := by
  have nodup := nodup_taken order
  rw [h.split.taken] at nodup
  exact nodup.of_append_left

theorem carried_iff {p : FramePart} : FramePart.before order.taken p .offer = true ↔ p ∈ front := h.split.mem_front_iff.symm

theorem ringOut : v.ringOut = if .expire ∈ front then expiredOut (s.timing.frameCount + 1) s.ringOut else s.ringOut := by
  have begun := Frame.timingFrameStart s c timer.next
  have count : (s.timingFrameStart c timer.next).timing.frameCount = s.timing.frameCount + 1 :=
    startFields_timingFrameStart.2.2.1
  have run := (startRun_of_quiet h.nodup h.quiet).1
  rw [← h.before, count, ← begun.2 .ringOut (by decide)] at run
  exact run

theorem roster : v.roster = if .holds ∈ front then s.roster.countHolds else s.roster := by
  have begun := Frame.timingFrameStart s c timer.next
  have run := (startRun_of_quiet h.nodup h.quiet).2
  rw [← h.before, ← begun.2 .roster (by decide)] at run
  exact run

theorem places : placesBody v = placesBody s := by
  unfold placesBody
  rw [h.ringOut]
  split <;> rfl

theorem rosterBody_eq : rosterBody v = rosterBody s := rosterBody_of_roster h.roster

theorem station : v.loader.station = s.loader.station :=
  h.before ▸ station_startRun.trans (congrArg Loader.station (loader_timingFrameStart timer.next))

/-- The offer leaves every block but RING OUT, the roster and the notices, as the parts after it leave the role, the Timing
Unit and, once it has been made, the presentation. -/
theorem blocks : v.role = (started c timer order s).role ∧ v.timing = (started c timer order s).timing ∧
    (if .present ∈ front then
      v.presentation.shown = (started c timer order s).presentation.shown ∧ v.slots = (started c timer order s).slots
    else v.presentation.shown = s.presentation.shown ∧ v.slots = s.slots) := by
  have offered := Frame.standingOffer v
  have begun := Frame.timingFrameStart s c timer.next
  have no_role : FramePart.role ∉ rest := fun k =>
    (h.split.mem_rest_iff.1 k).2 (h.split.mem_front_iff.2 (FrameOrder.taken_spec order).2.2.2.2.1)
  have kept {p : Part} (hp : p = .role ∨ p = .timing) : p.same v.standingOffer (started c timer order s) := by
    rw [h.after]
    refine same_startRun fun x hx => ?_
    have other : x ≠ .role := fun k => no_role (k ▸ hx)
    rcases hp with rfl | rfl <;> cases x <;> simp_all [partChanges]
  have slots {l : List FramePart} (absent : FramePart.present ∉ l) (a : State) :
      a.slots = (startRun c (cutsFrame c timer.last timer.next) order.composeTicks l a).slots := by
    refine same_startRun (y := .slots) fun x hx => ?_
    have other : x ≠ .present := fun k => absent (k ▸ hx)
    cases x <;> simp_all [partChanges]
  refine ⟨(offered.2 .role (by decide)).trans (kept (.inl rfl)), (offered.2 .timing (by decide)).trans (kept (.inr rfl)), ?_⟩
  by_cases presents : FramePart.present ∈ front
  · have absent : FramePart.present ∉ rest := fun k => (h.split.mem_rest_iff.1 k).2 presents
    have next : v.standingOffer.loader.settled = some c :=
      (congrArg Loader.settled (offered.2 .loader (by decide))).symm.trans h.settled
    rw [if_pos presents, h.after]
    refine ⟨?_, (offered.2 .slots (by decide)).trans (slots absent _)⟩
    rw [shown_startRun absent next]
    exact congrArg Presentation.shown (offered.2 .presentation (by decide))
  · have base_settled : (s.timingFrameStart c timer.next).loader.settled = some c := by
      have loader : (s.timingFrameStart c timer.next).loader = v.loader := by
        rw [h.before]
        exact same_startRun (y := .loader) fun x _ => by cases x <;> decide
      exact (congrArg Loader.settled loader).trans h.settled
    rw [if_neg presents, h.before]
    refine ⟨?_, (slots presents _).symm.trans (begun.2 .slots (by decide)).symm⟩
    rw [shown_startRun presents base_settled]
    exact congrArg Presentation.shown (begun.2 .presentation (by decide)).symm

/-- What the STANDING says (R44, R47). -/
theorem ownSaid_eq (settled : s.loader.settled = some c) :
    ownSaid c v = saidAtFrameStart c order s (started c timer order s) := by
  obtain ⟨role, timing, shown⟩ := h.blocks
  have epoch : v.timing.epoch = s.timing.epoch + 1 :=
    (congrArg TimingUnit.epoch timing).trans (startFields_started settled).2.1
  have ring : v.ringOut.ring = if FramePart.before order.taken .expire .offer = true ∧ (s.ringOut.outstanding.any fun o =>
      decide (2 ≤ (s.timing.frameCount + 1 - o.departed).toNat)) = true then .broken else s.ringOut.ring := by
    have expires : (s.ringOut.outstanding.any fun o => decide (2 ≤ (s.timing.frameCount + 1 - o.departed).toNat)) = true ↔
        ¬ s.ringOut.outstanding.countP (Outstanding.old (s.timing.frameCount + 1)) = 0 :=
      List.any_eq_true.trans (List.countP_pos_iff.symm.trans Nat.pos_iff_ne_zero)
    rw [h.ringOut]
    by_cases taken : FramePart.expire ∈ front
    · rw [if_pos taken]
      by_cases old : (s.ringOut.outstanding.any fun o => decide (2 ≤ (s.timing.frameCount + 1 - o.departed).toNat)) = true
      · rw [if_pos ⟨h.carried_iff.2 taken, old⟩]
        exact if_neg (expires.1 old)
      · rw [if_neg fun k => old k.2]
        exact if_pos (not_not.1 (mt expires.2 old))
    · rw [if_neg taken, if_neg fun k => taken (h.carried_iff.1 k.1)]
  have holds : v.roster.conflictHold = s.roster.conflictHold -
        (if FramePart.before order.taken .holds .offer = true then 1 else 0) ∧
      v.roster.mismatchHold = s.roster.mismatchHold -
        (if FramePart.before order.taken .holds .offer = true then 1 else 0) := by
    rw [h.roster]
    simp only [h.carried_iff]
    split <;> exact ⟨rfl, rfl⟩
  have carried : v.presentation.shown = (if FramePart.before order.taken .present .offer = true then
        (started c timer order s).presentation.shown else s.presentation.shown) ∧
      v.slots.complete = (if FramePart.before order.taken .present .offer = true then
        (started c timer order s).slots.complete else s.slots.complete) := by
    by_cases presents : FramePart.present ∈ front
    · rw [if_pos presents] at shown
      rw [if_pos (h.carried_iff.2 presents), if_pos (h.carried_iff.2 presents)]
      exact ⟨shown.1, congrArg SlotManager.complete shown.2⟩
    · rw [if_neg presents] at shown
      rw [if_neg (mt h.carried_iff.1 presents), if_neg (mt h.carried_iff.1 presents)]
      exact ⟨shown.1, congrArg SlotManager.complete shown.2⟩
  have positive (n m : Nat) : decide (0 < n - m) = decide (m < n) := by
    rw [decide_eq_decide]
    omega
  unfold ownSaid saidAtFrameStart
  dsimp only
  rw [ring, holds.1, holds.2, carried.1, carried.2, epoch, role, timing, positive, positive]

end AtOffer

/-- Removing an aged entry makes the list shorter. -/
theorem length_aged_lt {es : List Entry} (aged : ∃ y ∈ es, 3 ≤ y.silence) :
    ((es.filter (fun y => decide (y.silence < 3))).map (fun y => { y with silence := y.silence + 1 })).length < es.length := by
  obtain ⟨y, hy, old⟩ := aged
  rw [List.length_map]
  exact List.length_filter_lt_length_iff_exists.2 ⟨y, hy, by simpa using old⟩

/-- What the departure of the own STANDING leaves at the roster (R47, R53). -/
def rosterAged (sequence : Byte) (r : RosterUnit) : RosterUnit :=
  { r with
    entries := (r.entries.filter (fun y => decide (y.silence < 3))).map (fun y => { y with silence := y.silence + 1 }),
    entriesAged := bumpBy (r.entries.countP (fun y => decide (3 ≤ y.silence))) r.entriesAged, ownSequence := sequence }

theorem roster_ownStandingDeparts_eq (q : Byte) : (s.ownStandingDeparts q).roster = rosterAged q s.roster ∧
    ((∃ y ∈ s.roster.entries, 3 ≤ y.silence) → (s.ownStandingDeparts q).notices.getLsbD 0 = true) := by
  rw [ownStandingDeparts_eq]
  refine ⟨rfl, fun aged => ?_⟩
  dsimp only
  rw [if_pos aged]
  simp

end Sys2Proof

/-! ### The own STANDING ages the entries (R53) -/

namespace Sys2Proof

open Sys2Proof.Machine

variable {s t u v w : State} {e : Elapsed} {c : Settings} {timer : FrameTimer} {order : FrameOrder}

/-- The STANDING that a frame start offers to a free RING OUT begins, and ages the entries. -/
theorem started_of_offer (settled : s.loader.settled = some c) (running : s.loader.station = .running) (free : FreeOut s)
    (empty : s.ringOut.beat = none)
    (first : (started c timer order s).role.role ≠ .origin ∨ FramePart.before order.taken .offer .compose = true) :
    let t := started c timer order s
    let aged := rosterAged s.ringOut.sequence s.roster
    (t.roster.entries = aged.entries ∧ t.roster.entriesAged = aged.entriesAged ∧ t.roster.ownSequence = aged.ownSequence) ∧
      t.ringOut.standing = false ∧ t.ringOut.sequence = s.ringOut.sequence + 1 ∧
      t.ringOut.localSent = bump s.ringOut.localSent ∧
      t.ringOut.sending = (ownSent c .standing 0 (saidAtFrameStart c order s t).payload s).ringOut.sending ∧
      ((∃ y ∈ s.roster.entries, 3 ≤ y.silence) → t.notices.getLsbD 0 = true) := by
  intro t aged
  obtain ⟨v, front, rest, h⟩ := exists_atOffer settled first
  have v_running : v.loader.station = .running := h.station.trans running
  have v_free := free.of_placesBody h.places
  have v_empty : v.ringOut.beat = none := (congrArg RingTransmitter.beat h.places :).trans empty
  have sequence : v.ringOut.sequence = s.ringOut.sequence := (congrArg RingTransmitter.sequence h.places :)
  have local_sent : v.ringOut.localSent = s.ringOut.localSent := (congrArg RingTransmitter.localSent h.places :)
  have entries : v.roster.entries = s.roster.entries := (congrArg RosterUnit.entries h.rosterBody_eq :)
  have entries_aged : v.roster.entriesAged = s.roster.entriesAged := (congrArg RosterUnit.entriesAged h.rosterBody_eq :)
  let sent := ownSent c .standing 0 (ownSaid c v).payload (v.setRingOut { standingPlaced v.ringOut with standing := false })
  have offered : v.standingOffer = sent.ownStandingDeparts v.ringOut.sequence :=
    standingOffer_of_free v_running h.settled v_free v_empty
  have ⟨⟨z, sends⟩, _, _⟩ := departedFrom_standingOffer v_running h.settled v_free
  have ring : v.standingOffer.ringOut = sent.ringOut := by rw [offered, ringOut_ownStandingDeparts]
  obtain ⟨left, noticed⟩ := roster_ownStandingDeparts_eq (s := sent) v.ringOut.sequence
  rw [← offered] at left noticed
  have after : t = startRun c _ order.composeTicks rest v.standingOffer := h.after
  have body : sentBody t = sentBody v.standingOffer := after ▸ sentBody_startRun sends
  have place : standingPlace t = standingPlace v.standingOffer := after ▸ standingPlace_startRun sends h.split.not_rest
  have roster : rosterBody t = rosterBody v.standingOffer := after ▸ rosterBody_startRun sends
  obtain ⟨sending, sent_sequence, sent_count⟩ : t.ringOut.sending = sent.ringOut.sending ∧
      t.ringOut.sequence = sent.ringOut.sequence ∧ t.ringOut.localSent = sent.ringOut.localSent := by
    rw [← ring]
    exact ⟨congrArg Prod.fst body, congrArg (fun x => x.2.1) body, congrArg (fun x => x.2.2) body⟩
  refine ⟨⟨?_, ?_, ?_⟩, ?_, sent_sequence.trans (congrArg (· + 1) sequence), sent_count.trans (congrArg bump local_sent),
    ?_, fun some_aged => ?_⟩
  · refine (congrArg RosterUnit.entries roster :).trans ((congrArg RosterUnit.entries left).trans ?_)
    exact congrArg (fun es => (es.filter fun y : Entry => decide (y.silence < 3)).map fun y => { y with silence := y.silence + 1 })
      entries
  · refine (congrArg RosterUnit.entriesAged roster :).trans ((congrArg RosterUnit.entriesAged left).trans ?_)
    exact congrArg₂ (fun es n => bumpBy (es.countP fun y : Entry => decide (3 ≤ y.silence)) n) entries entries_aged
  · exact (congrArg RosterUnit.ownSequence roster :).trans ((congrArg RosterUnit.ownSequence left).trans sequence)
  · exact (congrArg Prod.fst place :).trans (congrArg RingTransmitter.standing ring)
  · rw [sending, show saidAtFrameStart c order s t = _ from (h.ownSaid_eq settled).symm]
    unfold sent ownSent
    dsimp only [State.setRingOut, standingPlaced]
    rw [sequence]
  · rw [after]
    exact notice_startRun (noticed (entries ▸ some_aged))

/-- Where an entry is aged out at the next departure of the own STANDING, ENTRY_AGED is that step (log 5). -/
theorem exec_entryAged_of_runs (runs : TimerRuns e c timer s) (idle : (s.elapse e).ringOut.sending = none)
    (shorter : (started c timer order (s.elapse e)).roster.entries.length < (s.elapse e).roster.entries.length) :
    exec (.entryAged e order) s = .next (started c timer order (s.elapse e)) := by
  have done : (s.elapse e).sendDone = s.elapse e := by
    unfold State.sendDone
    rw [idle]
  rw [exec_entryAged runs.1, State.agingDeparture, done, if_neg (Nat.lt_irrefl _), nextFrameStart_of_runs runs,
    if_pos shorter]

/-- Settles O15: the STANDING that departs, at the end of a transmission and at a frame start, ages the entries. -/
theorem standingDepartureAgesEntries : Obligations.StandingDepartureAgesEntries := by
  refine ⟨fun e order c x s awake settled sends empty leave beat standing => ?_,
    fun e order c timer s runs running idle empty leave beat => ?_⟩
  · intro b
    let done : State := { b with ringOut := freedOut x b.ringOut }
    have left : b.sendDone = (ownSent c .standing 0 (ownSaid c done).payload
        { done with ringOut := { done.ringOut with standing := false } }).ownStandingDeparts b.ringOut.sequence :=
      (sendDone_eq sends).trans (chooseOut_standing (s := done) rfl empty settled leave beat standing)
    obtain ⟨aged, noticed⟩ := roster_ownStandingDeparts_eq (s := ownSent c .standing 0 (ownSaid c done).payload
      { done with ringOut := { done.ringOut with standing := false } }) b.ringOut.sequence
    rw [← left] at aged noticed
    refine ⟨b.sendDone, exec_ringTransmissionComplete awake, aged, fun old => ⟨?_, noticed old⟩, .sendDone b⟩
    have shorter : b.sendDone.roster.entries.length < b.roster.entries.length := by
      rw [aged]
      exact length_aged_lt old
    rw [exec_entryAged awake, State.agingDeparture, if_pos shorter]
  · intro b
    have station : b.loader.station = .running := elapse_station.trans running
    refine ⟨started c timer order b, exec_frameStart_of_runs runs, fun first => ?_⟩
    obtain ⟨⟨entries, aged, own⟩, standing, sequence, sent, sending, noticed⟩ :=
      started_of_offer (timer := timer) (order := order) runs.2.1 station ⟨idle, empty, leave⟩ beat first
    refine ⟨entries, aged, own, standing, sequence, sent, sending, fun old => ⟨?_, noticed old⟩⟩
    refine exec_entryAged_of_runs runs idle ?_
    rw [entries]
    exact length_aged_lt old

end Sys2Proof

/-! ### The outstanding list through a frame start (R124 to R126) -/

namespace Sys2Proof

open Sys2Proof.Machine

/-- The outstanding list, LOST_OWN and the ring state. -/
structure LossSide where
  outstanding : List Outstanding
  lostOwn : Counter
  ring : RingState

namespace LossSide

variable {x y : LossSide} {o : Outstanding} {count : BitVec 16}

/-- The entries 2 or more frame starts old are lost (R125). -/
def expired (count : BitVec 16) (x : LossSide) : LossSide :=
  { outstanding := x.outstanding.filter (fun o => !o.old count),
    lostOwn := bumpBy (x.outstanding.countP (Outstanding.old count)) x.lostOwn,
    ring := if x.outstanding.countP (Outstanding.old count) = 0 then x.ring else .broken }

/-- An entry joins the tail; a full list first makes room (R124). -/
def joined (o : Outstanding) (x : LossSide) : LossSide :=
  if 8 ≤ x.outstanding.length then ⟨x.outstanding.tail ++ [o], bump x.lostOwn, .broken⟩
  else ⟨x.outstanding ++ [o], x.lostOwn, x.ring⟩

/-- What a frame start at which at most one own packet departs makes of the list. -/
inductive After (count : BitVec 16) (x : LossSide) (idle : Prop) : LossSide → Prop
  | expires : After count x idle (x.expired count)
  | joins (o : Outstanding) (free : idle) (departed : o.departed = count) : After count x idle ((x.expired count).joined o)
  | joinsFirst (o : Outstanding) (free : idle) (departed : o.departed = count) :
      After count x idle ((x.joined o).expired count)

theorem old_of_departed (departed : o.departed = count) : o.old count = false := by
  rw [Outstanding.old, departed, BitVec.sub_self]
  rfl

theorem expired_of_none (young : x.outstanding.countP (Outstanding.old count) = 0) : x.expired count = x := by
  have all : x.outstanding.filter (fun o => !o.old count) = x.outstanding := by
    refine List.filter_eq_self.2 fun o ho => ?_
    simpa using List.countP_eq_zero.1 young o ho
  unfold expired
  rw [young, all, bumpBy_zero, if_pos rfl]

theorem young_of_after {idle : Prop} (h : After count x idle y) : ∀ o ∈ y.outstanding, o.old count = false := by
  have filtered (z : LossSide) : ∀ o ∈ (z.expired count).outstanding, o.old count = false := fun o ho => by
    simpa using (List.mem_filter.1 ho).2
  cases h with
  | expires => exact filtered x
  | joinsFirst => exact filtered _
  | joins o free departed =>
    intro p hp
    unfold joined at hp
    split at hp
    · rcases List.mem_append.1 hp with old | new
      · exact filtered x p (List.mem_of_mem_tail old)
      · exact List.mem_singleton.1 new ▸ old_of_departed departed
    · rcases List.mem_append.1 hp with old | new
      · exact filtered x p old
      · exact List.mem_singleton.1 new ▸ old_of_departed departed

theorem ring_joined (broken : x.ring = .broken) : (x.joined o).ring = .broken := by
  unfold joined
  split
  · rfl
  · exact broken

theorem ring_expired (broken : x.ring = .broken ∨ 0 < x.outstanding.countP (Outstanding.old count)) :
    (x.expired count).ring = .broken := by
  unfold expired
  dsimp only
  split
  · next young => exact broken.resolve_right (by omega)
  · rfl

theorem broken_of_after {idle : Prop} (h : After count x idle y)
    (lost : 0 < x.outstanding.countP (Outstanding.old count)) : y.ring = .broken := by
  cases h with
  | expires => exact ring_expired (.inr lost)
  | joins o free departed => exact ring_joined (ring_expired (.inr lost))
  | joinsFirst o free departed =>
    refine ring_expired ?_
    unfold joined
    split
    · exact .inl rfl
    · rw [List.countP_append]
      exact .inr (by omega)

/-- A list with room, or with an old entry at its head to make room, loses its old entries alone. -/
theorem after_of_room {idle : Prop} (h : After count x idle y)
    (room : ¬ idle ∨ x.outstanding.length < 8 ∨
      (x.outstanding.length = 8 ∧ ∃ o rest, x.outstanding = o :: rest ∧ o.old count = true)) :
    let lost := x.outstanding.countP (Outstanding.old count)
    y.lostOwn = bumpBy lost x.lostOwn ∧ (lost = 0 → y.ring = x.ring) ∧
      ∃ own, y.outstanding = x.outstanding.filter (fun o => !o.old count) ++ own ∧ own.length ≤ 1 ∧
        (¬ idle → own = []) ∧ ∀ o ∈ own, o.departed = count := by
  intro lost
  cases h with
  | expires => exact ⟨rfl, fun young => if_pos young, [], (List.append_nil _).symm, Nat.zero_le _, fun _ => rfl, nofun⟩
  | joins o free departed =>
    have left : (x.expired count).outstanding.length < 8 := by
      have fewer : (x.expired count).outstanding.length ≤ x.outstanding.length := List.length_filter_le _ _
      rcases room with busy | short | ⟨eight, p, rest, list, old⟩
      · exact absurd free busy
      · omega
      · refine lt_of_lt_of_le (List.length_filter_lt_length_iff_exists.2 ⟨p, ?_, by simp [old]⟩) eight.le
        rw [list]
        exact List.mem_cons_self
    rw [joined, if_neg (Nat.not_le.2 left)]
    refine ⟨rfl, fun young => if_pos young, [o], rfl, Nat.le_refl _, fun busy => absurd free busy, fun p hp => ?_⟩
    rw [List.mem_singleton.1 hp]
    exact departed
  | joinsFirst o free departed =>
    have fresh : o.old count = false := old_of_departed departed
    have own : ∀ p ∈ [o], p.departed = count := fun p hp => (List.mem_singleton.1 hp).symm ▸ departed
    rcases room with busy | short | ⟨eight, p, rest, list, old⟩
    · exact absurd free busy
    · rw [joined, if_neg (Nat.not_le.2 short), expired]
      have same : (x.outstanding ++ [o]).countP (Outstanding.old count) = lost := by simp [lost, fresh]
      dsimp only
      rw [same]
      refine ⟨rfl, fun young => if_pos young, [o], ?_, Nat.le_refl _, fun busy => absurd free busy, own⟩
      rw [List.filter_append]
      simp [fresh]
    · have count_head : lost = rest.countP (Outstanding.old count) + 1 := by
        simp only [lost, list, List.countP_cons, old, if_true]
      rw [joined, if_pos eight.ge, expired, list]
      have tail : (rest ++ [o]).countP (Outstanding.old count) = rest.countP (Outstanding.old count) := by simp [fresh]
      dsimp only [List.tail_cons]
      refine ⟨?_, fun young => absurd young (by omega), [o], ?_, Nat.le_refl _, fun busy => absurd free busy, own⟩
      · refine BitVec.eq_of_toNat_eq ?_
        rw [tail, bumpBy_toNat, bump_toNat, bumpBy_toNat, count_head]
        omega
      · rw [List.filter_append, List.filter_cons]
        simp [fresh, old]

/-- A full list with nothing to expire stays, or makes room for one entry. -/
theorem after_of_full {idle : Prop} (h : After count x idle y) (full : 8 ≤ x.outstanding.length)
    (young : x.outstanding.countP (Outstanding.old count) = 0) :
    (y.outstanding = x.outstanding ∧ y.lostOwn = x.lostOwn ∧ y.ring = x.ring) ∨
      ∃ o, y.outstanding = x.outstanding.tail ++ [o] ∧ o.departed = count ∧ y.lostOwn = bump x.lostOwn ∧
        y.ring = .broken := by
  cases h with
  | expires =>
    rw [expired_of_none young]
    exact .inl ⟨rfl, rfl, rfl⟩
  | joins o free departed =>
    rw [expired_of_none young, joined, if_pos full]
    exact .inr ⟨o, rfl, departed, rfl, rfl⟩
  | joinsFirst o free departed =>
    have still : (x.joined o).outstanding.countP (Outstanding.old count) = 0 := by
      have fresh : o.old count = false := old_of_departed departed
      have sub := (List.tail_sublist x.outstanding).countP_le (p := Outstanding.old count)
      have tail_young : x.outstanding.tail.countP (Outstanding.old count) = 0 := Nat.le_zero.1 (young ▸ sub)
      rw [joined, if_pos full, List.countP_append, tail_young]
      simp [fresh]
    rw [expired_of_none still, joined, if_pos full]
    exact .inr ⟨o, rfl, departed, rfl, rfl⟩

end LossSide

end Sys2Proof

/-! ### The fault holds and the outstanding list at a frame start (R45, R124 to R126) -/

namespace Sys2Proof

open Sys2Proof.Machine

variable {s t u v w : State} {e : Elapsed} {c : Settings} {timer : FrameTimer} {order : FrameOrder} {cut : Bool} {d : Tick}
  {x : FramePart} {l : List FramePart}

def lossSide (s : State) : LossSide := ⟨s.ringOut.outstanding, s.ringOut.lostOwn, s.ringOut.ring⟩

theorem lossSide_of_ringOut (ring : t.ringOut = s.ringOut) : lossSide t = lossSide s :=
  congrArg (fun r : RingTransmitter => (⟨r.outstanding, r.lostOwn, r.ring⟩ : LossSide)) ring

theorem lossSide_departForwarded (p : RingPacket) (queue : List RingPacket) :
    lossSide (s.departForwarded p queue) = lossSide s := by
  unfold lossSide State.departForwarded RingTransmitter.countCapped
  dsimp only
  split
  · split <;> rfl
  · rfl

/-- `u` is `s` with a packet in its place, before the choice of RING OUT. -/
structure Placed (s u : State) : Prop where
  frame : Frame [.now, .presentation, .ringOut] s u
  side : lossSide u = lossSide s
  sending : u.ringOut.sending = s.ringOut.sending

/-- The composition and the offer do nothing, or place a packet and let RING OUT choose. -/
theorem framePart_of_offers (offers : x = .compose ∨ x = .offer) :
    s.framePart c cut d x = s ∨ ∃ u, Placed s u ∧ s.framePart c cut d x = u.chooseOut := by
  rcases offers with rfl | rfl
  · rcases composition_cases (c := c) (d := d) s with ⟨-, same⟩ | ⟨-, composed⟩
    · exact .inl same
    · let u := beforeBeat c d s
      have ring : u.ringOut = s.ringOut := ringOut_beforeBeat
      refine .inr ⟨u.setRingOut (beatPlaced (s.composed c) u.ringOut), ⟨?_, ?_, ?_⟩, composed.trans (offerBeat_eq _)⟩
      · exact (frame_beforeBeat.mono (by decide)).trans ((Frame.setRingOut _ _).mono (by decide))
      · exact (lossSide_of_ringOut ring :)
      · exact (congrArg RingTransmitter.sending ring :)
  · by_cases running : s.loader.station = .running
    · refine .inr ⟨s.setRingOut (standingPlaced s.ringOut), ⟨?_, rfl, rfl⟩, standingOffer_of_running running⟩
      exact (Frame.setRingOut s _).mono (by decide)
    · exact .inl (standingOffer_of_other running)

/-! #### At most one own packet departs -/

/-- Nothing joins the outstanding list, or RING OUT turns busy and one entry does. -/
def OutEffect (s t : State) : Prop :=
  t.timing.frameCount = s.timing.frameCount ∧
    ((lossSide t = lossSide s ∧ (s.ringOut.sending ≠ none → t.ringOut.sending ≠ none)) ∨
      (s.ringOut.sending = none ∧ t.ringOut.sending ≠ none ∧
        ∃ o, o.departed = s.timing.frameCount ∧ lossSide t = (lossSide s).joined o))

namespace OutEffect

theorem of_ringOut (ring : t.ringOut = s.ringOut) (count : t.timing.frameCount = s.timing.frameCount) : OutEffect s t := by
  exact ⟨count, .inl ⟨lossSide_of_ringOut ring, fun busy => ring ▸ busy⟩⟩

theorem trans (h : OutEffect s t) (k : OutEffect t u) : OutEffect s u := by
  obtain ⟨count, effect⟩ := h
  obtain ⟨count', effect'⟩ := k
  refine ⟨count'.trans count, ?_⟩
  rcases effect with ⟨same, busy⟩ | ⟨idle, busy, o, departed, joined⟩
  · rcases effect' with ⟨same', busy'⟩ | ⟨idle', busy', o, departed, joined⟩
    · exact .inl ⟨same'.trans same, fun k => busy' (busy k)⟩
    · exact .inr ⟨by_contra fun k => busy k idle', busy', o, departed.trans count, same ▸ joined⟩
  · rcases effect' with ⟨same', busy'⟩ | ⟨idle', -, -⟩
    · exact .inr ⟨idle, busy' busy, o, departed, same'.trans joined⟩
    · exact absurd idle' busy

theorem chooseOut (s : State) : OutEffect s s.chooseOut := by
  have count : s.chooseOut.timing.frameCount = s.timing.frameCount :=
    congrArg TimingUnit.frameCount ((Frame.chooseOut s).2 .timing (by decide)).symm
  have choice := outChoice_chooseOut s
  generalize s.chooseOut = t at choice count
  cases choice with
  | busy sending => exact .of_ringOut rfl rfl
  | idle sending queue nothing => exact .of_ringOut rfl rfl
  | forwarded p rest sending queue =>
    exact ⟨count, .inl ⟨lossSide_departForwarded p rest, fun busy => absurd sending busy⟩⟩
  | own t sending queue settled taken =>
    obtain ⟨kind, bytes, sent, joined, lost, ring, -⟩ := taken
    refine ⟨count, .inr ⟨sending, by rw [sent]; exact nofun, ⟨s.ringOut.sequence, kind, s.timing.frameCount⟩, rfl, ?_⟩⟩
    unfold lossSide LossSide.joined
    rw [joined, lost, ring]
    by_cases full : 8 ≤ s.ringOut.outstanding.length
    · simp only [full, decide_true, if_true]
    · simp only [full, decide_false, if_false, Bool.false_eq_true]

theorem framePart (other : x ≠ .expire) : OutEffect s (s.framePart c cut d x) := by
  have offered (offers : x = .compose ∨ x = .offer) : OutEffect s (s.framePart c cut d x) := by
    rcases framePart_of_offers (s := s) (c := c) (cut := cut) (d := d) offers with same | ⟨u, placed, chosen⟩
    · rw [same]
      exact .of_ringOut rfl rfl
    · rw [chosen]
      have count : u.timing.frameCount = s.timing.frameCount :=
        congrArg TimingUnit.frameCount (placed.frame.2 .timing (by decide)).symm
      have before : OutEffect s u := ⟨count, .inl ⟨placed.side, placed.sending ▸ id⟩⟩
      exact before.trans (chooseOut u)
  cases x with
  | expire => exact absurd rfl other
  | compose => exact offered (.inl rfl)
  | offer => exact offered (.inr rfl)
  | role | settle | present | firstLine | holds =>
    exact .of_ringOut ((frame_framePart cut d _).2 .ringOut (by decide)).symm frameCount_framePart

theorem startRun (absent : .expire ∉ l) : OutEffect s (startRun c cut d l s) := by
  induction l generalizing s with
  | nil => exact .of_ringOut rfl rfl
  | cons x l ih =>
    exact .trans (.framePart fun k => absent (k ▸ List.mem_cons_self)) (ih fun k => absent (List.mem_cons_of_mem _ k))

end OutEffect

/-- The outstanding list after a frame start. -/
theorem lossSide_started : LossSide.After (s.timing.frameCount + 1) (lossSide s) (s.ringOut.sending = none)
    (lossSide (started c timer order s)) := by
  obtain ⟨front, rest, split⟩ := exists_splitAt order .expire
  let cut := cutsFrame c timer.last timer.next
  let base := s.timingFrameStart c timer.next
  let v := startRun c cut order.composeTicks front base
  have begun : Frame [.now, .timing, .notices] s base := .timingFrameStart s c timer.next
  have ring : base.ringOut = s.ringOut := (begun.2 .ringOut (by decide)).symm
  have base_side : lossSide base = lossSide s := lossSide_of_ringOut ring
  have base_count : base.timing.frameCount = s.timing.frameCount + 1 := startFields_timingFrameStart.2.2.1
  have base_sending : base.ringOut.sending = s.ringOut.sending := congrArg RingTransmitter.sending ring
  obtain ⟨v_count, front_effect⟩ : OutEffect base v := .startRun split.not_front
  have expired : lossSide v.expireOld = (lossSide v).expired (s.timing.frameCount + 1) := by
    rw [← base_count, ← v_count]
    exact congrArg (fun r : RingTransmitter => (⟨r.outstanding, r.lostOwn, r.ring⟩ : LossSide)) ringOut_expireOld_eq
  have sending : v.expireOld.ringOut.sending = v.ringOut.sending := by rw [ringOut_expireOld]
  have expired_count : v.expireOld.timing.frameCount = s.timing.frameCount + 1 :=
    (congrArg TimingUnit.frameCount ((Frame.expireOld v).2 .timing (by decide))).symm.trans (v_count.trans base_count)
  have after : started c timer order s = startRun c cut order.composeTicks rest v.expireOld := started_split split
  obtain ⟨-, rest_effect⟩ : OutEffect v.expireOld (started c timer order s) := after ▸ .startRun split.not_rest
  rw [base_sending, base_side, base_count] at front_effect
  rw [expired_count, sending, expired] at rest_effect
  rcases front_effect with ⟨same, busy⟩ | ⟨idle, busy, o, departed, joined⟩
  · rcases rest_effect with ⟨same', -⟩ | ⟨idle, -, o, departed, joined⟩
    · rw [same', same]
      exact .expires
    · rw [joined, same]
      exact .joins o (by_contra fun k => busy k idle) departed
  · rcases rest_effect with ⟨same', -⟩ | ⟨idle', -⟩
    · rw [same', joined]
      exact .joinsFirst o idle departed
    · exact absurd idle' busy

end Sys2Proof

/-! ### RING_CHANGED and the fault holds at a frame start (R45, R125, R177) -/

namespace Sys2Proof

open Sys2Proof.Machine

variable {s t u : State} {e : Elapsed} {c : Settings} {timer : FrameTimer} {order : FrameOrder} {cut : Bool} {d : Tick}
  {x : FramePart} {l : List FramePart}

/-! #### A ring that breaks is noticed -/

/-- The ring state stands, or it is BROKEN and RING_CHANGED is raised. -/
def RingNoted (s t : State) : Prop :=
  (∀ n, s.notices.getLsbD n = true → t.notices.getLsbD n = true) ∧
    (t.ringOut.ring = s.ringOut.ring ∨ (t.ringOut.ring = .broken ∧ t.notices.getLsbD 3 = true))

namespace RingNoted

theorem trans (h : RingNoted s t) (k : RingNoted t u) : RingNoted s u := by
  obtain ⟨kept, ring⟩ := h
  obtain ⟨kept', ring'⟩ := k
  refine ⟨fun n set => kept' n (kept n set), ?_⟩
  rcases ring' with same | noted
  · rw [same]
    exact ring.imp_right fun noted => ⟨noted.1, kept' 3 noted.2⟩
  · exact .inr noted

theorem noted (h : RingNoted s t) (broken : t.ringOut.ring = .broken) (before : s.ringOut.ring ≠ .broken) :
    t.notices.getLsbD 3 = true :=
  h.2.elim (fun same => absurd (same.symm.trans broken) before) fun noted => noted.2

theorem expireOld (s : State) : RingNoted s s.expireOld := by
  refine ⟨(Raises.expireEntries _ _).1, ?_⟩
  rcases Nat.eq_zero_or_pos (oldEntries s) with young | old
  · rw [expireOld_of_none young]
    exact .inl rfl
  · rw [expireOld_of_some old]
    by_cases broken : s.ringOut.ring = .broken
    · exact .inl broken.symm
    · refine .inr ⟨rfl, ?_⟩
      dsimp only
      rw [if_neg broken]
      simp

theorem chooseOut (s : State) : RingNoted s s.chooseOut := by
  refine ⟨Raises.chooseOut.1, ?_⟩
  have choice := outChoice_chooseOut s
  generalize s.chooseOut = t at choice
  cases choice with
  | busy | idle => exact .inl rfl
  | forwarded p rest => exact .inl (congrArg LossSide.ring (lossSide_departForwarded p rest))
  | own t sending queue settled taken =>
    obtain ⟨kind, bytes, -, -, -, ring, raised⟩ := taken
    rw [ring]
    by_cases full : 8 ≤ s.ringOut.outstanding.length
    · simp only [full, decide_true, if_true]
      by_cases broken : s.ringOut.ring = .broken
      · exact .inl broken.symm
      · exact .inr ⟨trivial, raised ⟨decide_eq_true full, broken⟩⟩
    · simp [full]

theorem framePart : RingNoted s (s.framePart c cut d x) := by
  have offered (offers : x = .compose ∨ x = .offer) : RingNoted s (s.framePart c cut d x) := by
    rcases framePart_of_offers (s := s) (c := c) (cut := cut) (d := d) offers with same | ⟨u, placed, chosen⟩
    · rw [same]
      exact ⟨fun _ => id, .inl rfl⟩
    · rw [chosen]
      have before : RingNoted s u :=
        ⟨fun _ => (placed.frame.2 .notices (by decide)) ▸ id, .inl (congrArg LossSide.ring placed.side)⟩
      exact before.trans (chooseOut u)
  cases x with
  | expire => exact expireOld s
  | compose => exact offered (.inl rfl)
  | offer => exact offered (.inr rfl)
  | role | settle | present | firstLine | holds =>
    refine ⟨(Raises.framePart cut d _).1, .inl ?_⟩
    exact congrArg RingTransmitter.ring ((frame_framePart cut d _).2 .ringOut (by decide)).symm

theorem startRun : RingNoted s (startRun c cut d l s) := by
  induction l generalizing s with
  | nil => exact ⟨fun _ => id, .inl rfl⟩
  | cons x l ih => exact framePart.trans ih

theorem started : RingNoted s (started c timer order s) := by
  have begun : Frame [.now, .timing, .notices] s (s.timingFrameStart c timer.next) := .timingFrameStart s c timer.next
  have before : RingNoted s (s.timingFrameStart c timer.next) :=
    ⟨(Raises.timingFrameStart _).1, .inl (congrArg RingTransmitter.ring (begun.2 .ringOut (by decide)).symm)⟩
  exact before.trans startRun

end RingNoted

/-! #### The fault holds -/

def faultHolds (s : State) : Nat × Nat := (s.roster.conflictHold, s.roster.mismatchHold)

/-- The count-down alone reaches the fault holds. -/
theorem faultHolds_framePart (other : x ≠ .holds) : faultHolds (s.framePart c cut d x) = faultHolds s := by
  have of_roster {a b : State} (same : b.roster = a.roster) : faultHolds b = faultHolds a :=
    congrArg (fun r : RosterUnit => (r.conflictHold, r.mismatchHold)) same
  have offered (offers : x = .compose ∨ x = .offer) : faultHolds (s.framePart c cut d x) = faultHolds s := by
    rcases framePart_of_offers (s := s) (c := c) (cut := cut) (d := d) offers with same | ⟨u, placed, chosen⟩
    · rw [same]
    · have before : faultHolds u = faultHolds s := of_roster (placed.frame.2 .roster (by decide)).symm
      rw [chosen, ← before]
      rcases roster_chooseOut u with kept | ⟨q, aged⟩
      · exact of_roster kept
      · unfold faultHolds
        rw [aged]
        rfl
  cases x with
  | holds => exact absurd rfl other
  | compose => exact offered (.inl rfl)
  | offer => exact offered (.inr rfl)
  | role | settle | present | firstLine | expire =>
    exact of_roster ((frame_framePart cut d _).2 .roster (by decide)).symm

theorem faultHolds_started : faultHolds (started c timer order s) =
    (s.roster.conflictHold - 1, s.roster.mismatchHold - 1) := by
  have begun : Frame [.now, .timing, .notices] s (s.timingFrameStart c timer.next) := .timingFrameStart s c timer.next
  have roster : s.roster = (s.timingFrameStart c timer.next).roster := begun.2 .roster (by decide)
  have once := startRun_once (f := faultHolds) (g := fun p => (p.1 - 1, p.2 - 1)) (q := .holds) (may := fun _ _ => True)
    (c := c) (cut := cutsFrame c timer.last timer.next) (d := order.composeTicks) (s := s.timingFrameStart c timer.next)
    (fun x u other _ => faultHolds_framePart other) (fun u _ => rfl) (nodup_taken order) fun _ _ _ _ => trivial
  rw [if_pos (mem_taken order .holds)] at once
  rw [roster]
  exact once

/-! #### The two events -/

theorem holdEnds_iff : s.holdEnds = true ↔ s.roster.conflictHold = 1 ∨ s.roster.mismatchHold = 1 := by
  simp [State.holdEnds]

theorem outstandingEnds_iff : s.outstandingEnds = true ↔
    0 < s.ringOut.outstanding.countP (Outstanding.old (s.timing.frameCount + 1)) :=
  List.any_eq_true.trans List.countP_pos_iff.symm

/-- Settles O25: what one expiry and at most one departure make of the outstanding list, in either order. -/
theorem holdsAndOutstandingExpire : Obligations.HoldsAndOutstandingExpire := by
  intro e order c timer s runs b old lost ends
  have ⟨awake, settled, _, _⟩ := runs
  obtain ⟨expiry, no_expiry⟩ := frameStartIf_of_runs (order := order) runs (holdEnds_iff (s := b))
  obtain ⟨loss, no_loss⟩ := frameStartIf_of_runs (order := order) runs (outstandingEnds_iff (s := b))
  have after : LossSide.After (b.timing.frameCount + 1) (lossSide b) (b.ringOut.sending = none)
    (lossSide (started c timer order b)) := lossSide_started
  have holds : faultHolds (started c timer order b) = _ := faultHolds_started
  have noted : RingNoted b (started c timer order b) := .started
  have count : (started c timer order b).timing.frameCount = b.timing.frameCount + 1 := (startFields_started settled).2.2.1
  refine ⟨started c timer order b, exec_frameStart_of_runs runs, congrArg Prod.fst holds, congrArg Prod.snd holds,
    fun h => ?_, fun h => ?_, fun o ho => ?_, fun h => ⟨?_, ?_⟩, fun h => ?_, fun room => ?_, fun _ full young => ?_⟩
  · rw [exec_faultHoldExpiry awake, expiry h]
  · rw [exec_faultHoldExpiry awake, no_expiry h]
  · have young := LossSide.young_of_after after o ho
    rw [count]
    exact Nat.not_le.1 (of_decide_eq_false young)
  · rw [exec_outstandingExpiry awake, loss h]
  · have broken := LossSide.broken_of_after after h
    exact ⟨broken, noted.noted broken⟩
  · rw [exec_outstandingExpiry awake, no_loss h.not_gt]
  · exact LossSide.after_of_room after room
  · refine (LossSide.after_of_full after full young).imp_right fun ⟨o, joined, departed, counted, broken⟩ => ?_
    exact ⟨o, joined, departed, counted, broken, noted.noted broken⟩

end Sys2Proof
